-- ==== Sys2Proof/Word.lean ====
section
/-! DEFINITION. The bit widths of the RUPD Header Engine (00_scope.md R5, R6; 30_encoding.md R70). -/

namespace Sys2Proof

/-- A byte of HDR, PKT or DATA; also a flag mask or a byte operand (R6, R74, R75). -/
abbrev Byte := BitVec 8

/-- A sequence number, an ack number, a length, an index, RES, RND (R5). -/
abbrev Word := BitVec 16

/-- A command word on the 32-bit command port (R70). -/
abbrev CmdWord := BitVec 32

end Sys2Proof
end

