-- ==== Sys2Proof/Syntax.lean ====
section
/-! DEFINITION. The commands of the RUPD Header Engine, one constructor per row of spec/opcode_table.json
(30_encoding.md R76), the five formats of R71 and the pseudo-commands of R83. -/

namespace Sys2Proof

/-- The five command formats (R71). -/
inductive Format where
  /-- No operand: bits 23:0 are zero. -/
  | n
  /-- A 16-bit immediate in bits 15:0. -/
  | i
  /-- A flag mask in bits 7:0. -/
  | m
  /-- A byte write: index in bits 23:8, value in bits 7:0. -/
  | b
  /-- A byte read: index in bits 23:8. -/
  | x
  deriving DecidableEq, Repr

/-- The 37 commands (R76), each with the operands of its format (R73 to R75). -/
inductive Instr where
  /-- NOP (R150) -/
  | nop
  /-- ENC_SEQ #imm16 (R90) -/
  | encSeq (imm : Word)
  /-- DEC_SEQ (R91) -/
  | decSeq
  /-- ENC_ACK #imm16 (R92) -/
  | encAck (imm : Word)
  /-- DEC_ACK (R93) -/
  | decAck
  /-- SET_FLAG #mask8 (R94) -/
  | setFlag (mask : Byte)
  /-- CLR_FLAG #mask8 (R95) -/
  | clrFlag (mask : Byte)
  /-- HAS_FLAG #mask8 (R96) -/
  | hasFlag (mask : Byte)
  /-- CLR_HDR (R97) -/
  | clrHdr
  /-- DEC_FLAGS (R98) -/
  | decFlags
  /-- ASSEMBLE (R100) -/
  | assemble
  /-- SPLIT (R101) -/
  | split
  /-- WR_PKT idx16, #val8 (R102) -/
  | wrPkt (idx : Word) (val : Byte)
  /-- RD_PKT idx16 (R103) -/
  | rdPkt (idx : Word)
  /-- WR_DATA idx16, #val8 (R104) -/
  | wrData (idx : Word) (val : Byte)
  /-- RD_DATA idx16 (R105) -/
  | rdData (idx : Word)
  /-- SET_PLEN #imm16 (R106) -/
  | setPlen (imm : Word)
  /-- GET_PLEN (R107) -/
  | getPlen
  /-- SET_DLEN #imm16 (R108) -/
  | setDlen (imm : Word)
  /-- GET_DLEN (R109) -/
  | getDlen
  /-- BUILD_CONN_REQ (R120) -/
  | buildConnReq
  /-- BUILD_DISC_REQ (R121) -/
  | buildDiscReq
  /-- BUILD_DATA (R122) -/
  | buildData
  /-- BUILD_CLIENT_ACK (R123) -/
  | buildClientAck
  /-- BUILD_SERVER_ACK (R124) -/
  | buildServerAck
  /-- BUILD_CLOSE_ACK (R125) -/
  | buildCloseAck
  /-- V_CONN_REQ (R131) -/
  | vConnReq
  /-- V_CLIENT_ACK (R132) -/
  | vClientAck
  /-- V_SERVER_ACK (R133) -/
  | vServerAck
  /-- V_DISC_REQ (R134) -/
  | vDiscReq
  /-- CAPTURE_ORIG (R135) -/
  | captureOrig
  /-- C_CONNECT (R142) -/
  | cConnect
  /-- C_RECV (R143) -/
  | cRecv
  /-- C_SEND (R144) -/
  | cSend
  /-- C_CLOSE (R145) -/
  | cClose
  /-- S_RECV (R146) -/
  | sRecv
  /-- ABORT (R147) -/
  | abort
  deriving DecidableEq, Repr

/-- The assembler's pseudo-commands, which the block never sees (R83). -/
inductive Pseudo where
  /-- DELIVER b0, …: the host hands a received datagram to the block. -/
  | deliver (bytes : List Byte)
  /-- LOAD_DATA d0, …: the host loads a data segment. -/
  | loadData (bytes : List Byte)
  /-- HDR seq, ack, flags: make a header. -/
  | hdr (seq ack : Word) (flags : Byte)
  deriving DecidableEq, Repr

end Sys2Proof
end

