-- ==== Sys2Proof/Decode.lean ====
section
/-! DEFINITION. Decoding a 32-bit command word (30_encoding.md R70 to R80), total and rejecting by name; then the encoder. -/

namespace Sys2Proof

/-- Why a word is no command. Either way the block raises ILLEGAL_COMMAND (R77, R78). -/
inductive Reject where
  /-- Bits 31:24 are none of the 37 opcodes of R76 (R78). -/
  | unassignedOpcode (opcode : Byte)
  /-- A must-be-zero bit of the row's format is 1 (R77). -/
  | mustBeZeroSet (format : Format)
  deriving DecidableEq, Repr

/-- cmd[31:24] (R72). -/
def opcodeField (w : CmdWord) : Byte := w.extractLsb' 24 8

/-- cmd[15:0] (R73). -/
def imm16Field (w : CmdWord) : Word := w.extractLsb' 0 16

/-- cmd[7:0]: a flag mask (R74) or a byte value (R75). -/
def low8Field (w : CmdWord) : Byte := w.extractLsb' 0 8

/-- cmd[23:8] (R75). -/
def idx16Field (w : CmdWord) : Word := w.extractLsb' 8 16

/-- Format N: cmd[23:0] must be zero (R71, R77). -/
def decodeN (w : CmdWord) (c : Instr) : Except Reject Instr :=
  if w.extractLsb' 0 24 = 0#24 then .ok c else .error (.mustBeZeroSet .n)

/-- Format I: cmd[23:16] must be zero. -/
def decodeI (w : CmdWord) (c : Word → Instr) : Except Reject Instr :=
  if w.extractLsb' 16 8 = 0#8 then .ok (c (imm16Field w)) else .error (.mustBeZeroSet .i)

/-- Format M: cmd[23:8] must be zero. -/
def decodeM (w : CmdWord) (c : Byte → Instr) : Except Reject Instr :=
  if w.extractLsb' 8 16 = 0#16 then .ok (c (low8Field w)) else .error (.mustBeZeroSet .m)

/-- Format B has no must-be-zero bit. -/
def decodeB (w : CmdWord) (c : Word → Byte → Instr) : Except Reject Instr :=
  .ok (c (idx16Field w) (low8Field w))

/-- Format X: cmd[7:0] must be zero. -/
def decodeX (w : CmdWord) (c : Word → Instr) : Except Reject Instr :=
  if w.extractLsb' 0 8 = 0#8 then .ok (c (idx16Field w)) else .error (.mustBeZeroSet .x)

/-- "A decoder selects the row whose opcode equals cmd[31:24] and then checks the must-be-zero bits of its format" (R76). -/
def decode (w : CmdWord) : Except Reject Instr :=
  match (opcodeField w).toNat with
  | 0x00 => decodeN w .nop
  | 0x10 => decodeI w .encSeq
  | 0x11 => decodeN w .decSeq
  | 0x12 => decodeI w .encAck
  | 0x13 => decodeN w .decAck
  | 0x14 => decodeM w .setFlag
  | 0x15 => decodeM w .clrFlag
  | 0x16 => decodeM w .hasFlag
  | 0x17 => decodeN w .clrHdr
  | 0x18 => decodeN w .decFlags
  | 0x20 => decodeN w .assemble
  | 0x21 => decodeN w .split
  | 0x22 => decodeB w .wrPkt
  | 0x23 => decodeX w .rdPkt
  | 0x24 => decodeB w .wrData
  | 0x25 => decodeX w .rdData
  | 0x26 => decodeI w .setPlen
  | 0x27 => decodeN w .getPlen
  | 0x28 => decodeI w .setDlen
  | 0x29 => decodeN w .getDlen
  | 0x30 => decodeN w .buildConnReq
  | 0x31 => decodeN w .buildDiscReq
  | 0x32 => decodeN w .buildData
  | 0x33 => decodeN w .buildClientAck
  | 0x34 => decodeN w .buildServerAck
  | 0x35 => decodeN w .buildCloseAck
  | 0x40 => decodeN w .vConnReq
  | 0x41 => decodeN w .vClientAck
  | 0x42 => decodeN w .vServerAck
  | 0x43 => decodeN w .vDiscReq
  | 0x44 => decodeN w .captureOrig
  | 0x50 => decodeN w .cConnect
  | 0x51 => decodeN w .cRecv
  | 0x52 => decodeN w .cSend
  | 0x53 => decodeN w .cClose
  | 0x58 => decodeN w .sRecv
  | 0x5F => decodeN w .abort
  | _ => .error (.unassignedOpcode (opcodeField w))

/-- The decoder on a word numbered as spec/opcode_table.json numbers it. A command word is delivered whole (R70), so it has
no byte order; bits above `nbits` are 0. -/
def decodeTableWord (nbits w : Nat) : Option Instr :=
  match decode (BitVec.ofNat 32 (w % 2 ^ nbits)) with
  | .ok i => some i
  | .error _ => none

/-- Format N (R71). -/
def encodeN (op : Byte) : CmdWord := op ++ 0#24

/-- Format I (R71). -/
def encodeI (op : Byte) (imm : Word) : CmdWord := op ++ 0#8 ++ imm

/-- Format M (R71). -/
def encodeM (op mask : Byte) : CmdWord := op ++ 0#16 ++ mask

/-- Format B (R71). -/
def encodeB (op : Byte) (idx : Word) (val : Byte) : CmdWord := op ++ idx ++ val

/-- Format X (R71). -/
def encodeX (op : Byte) (idx : Word) : CmdWord := op ++ idx ++ 0#8

/-- The word of a command, by the opcode map of R76 and the formats of R71. -/
def encode : Instr → CmdWord
  | .nop => encodeN 0x00
  | .encSeq imm => encodeI 0x10 imm
  | .decSeq => encodeN 0x11
  | .encAck imm => encodeI 0x12 imm
  | .decAck => encodeN 0x13
  | .setFlag mask => encodeM 0x14 mask
  | .clrFlag mask => encodeM 0x15 mask
  | .hasFlag mask => encodeM 0x16 mask
  | .clrHdr => encodeN 0x17
  | .decFlags => encodeN 0x18
  | .assemble => encodeN 0x20
  | .split => encodeN 0x21
  | .wrPkt idx val => encodeB 0x22 idx val
  | .rdPkt idx => encodeX 0x23 idx
  | .wrData idx val => encodeB 0x24 idx val
  | .rdData idx => encodeX 0x25 idx
  | .setPlen imm => encodeI 0x26 imm
  | .getPlen => encodeN 0x27
  | .setDlen imm => encodeI 0x28 imm
  | .getDlen => encodeN 0x29
  | .buildConnReq => encodeN 0x30
  | .buildDiscReq => encodeN 0x31
  | .buildData => encodeN 0x32
  | .buildClientAck => encodeN 0x33
  | .buildServerAck => encodeN 0x34
  | .buildCloseAck => encodeN 0x35
  | .vConnReq => encodeN 0x40
  | .vClientAck => encodeN 0x41
  | .vServerAck => encodeN 0x42
  | .vDiscReq => encodeN 0x43
  | .captureOrig => encodeN 0x44
  | .cConnect => encodeN 0x50
  | .cRecv => encodeN 0x51
  | .cSend => encodeN 0x52
  | .cClose => encodeN 0x53
  | .sRecv => encodeN 0x58
  | .abort => encodeN 0x5F

end Sys2Proof
end

