-- ==== Sys2Proof/Config.lean ====
section
/-! DEFINITION. What 00_scope.md R5 fixes for every block, and the free values of 10_state.md R38.
MAX_PKT is a parameter that R5 leaves open: the state carries it (`State.maxData`, log 1). -/

namespace Sys2Proof

/-- Header length in bytes (R5, R50). -/
def Config.hdrLen : Nat := 5

/-- CONN_SEQ_MASK (R5, D10): RND is masked to [0, 32767] for a connection request. -/
def Config.connSeqMask : Word := 0x7FFF#16

/-- ACK_SEQ_MASK (R5, D11): the full range for the server ack and the server close ack. -/
def Config.ackSeqMask : Word := 0xFFFF#16

/-- FREE VALUE (log 4, DESIGN CHOICE of form): what PKT[a] holds after the reset numbered `draw`, until a command writes
it. R38: "unspecified", drawn once at reset and stable until written. It has no body, so no proof knows a value of it. It
names no instance: two blocks with the same reset number read equal unwritten bytes (log 12, DESIGN CHOICE). -/
opaque Config.pktAtReset (draw a : Nat) : Byte

/-- FREE VALUE (log 4, DESIGN CHOICE of form): what DATA[a] holds after the reset numbered `draw`, until a command writes
it (R38). As `pktAtReset`, it names no instance (log 12, DESIGN CHOICE). -/
opaque Config.dataAtReset (draw a : Nat) : Byte

end Sys2Proof
end

