-- ==== Sys2Proof/Machine/State.lean ====
section
/-! DEFINITION. The state of one RUPD Header Engine (10_state.md R20) as plain data, its reset (R38), and the reasons the
model can stop. -/

namespace Sys2Proof.Machine

/-- HDR, the 5-byte header register, by its bytes HDR[0] to HDR[4] (R21, R50). -/
structure Header where
  /-- HDR[0] -/
  seqLo : Byte
  /-- HDR[1] -/
  seqHi : Byte
  /-- HDR[2] -/
  ackLo : Byte
  /-- HDR[3] -/
  ackHi : Byte
  /-- HDR[4], the flags byte (R34) -/
  flags : Byte
  deriving DecidableEq, Repr

/-- EmptyHdr: five zero bytes (R116). -/
def emptyHdr : Header := ⟨0#8, 0#8, 0#8, 0#8, 0#8⟩

/-- The eight connection states of R29; `cstateCode` gives the 3-bit codes (log 7, DEDUCED). -/
inductive CState where
  | idle
  | cSynSent
  | cEstablished
  | cEchoWait
  | cClosing
  | sSynRcvd
  | sEstablished
  | closed
  deriving DecidableEq, Repr

/-- The error codes that can occur (R33, R154); `errCode` gives the 3-bit codes. 5 to 7 "never occur" (R30; log 7,
DEDUCED). -/
inductive Err where
  | noError
  | illegalCommand
  | malformedHeader
  | indexRange
  | illegalState
  deriving DecidableEq, Repr

/-- A byte store: the bytes that a command has written since the last reset, by address. An address that is not listed has
no value here; PKT and DATA then read as the free value drawn at reset (log 4). -/
abbrev Memory := List Host.Cell

/-- The canonical form: addresses strictly rising. An unlisted address has no value in the list, so no entry can equal
one (log 4). -/
abbrev Memory.wf (m : Memory) : Prop := m.Pairwise fun c d => c.1 < d.1

/-- What the host drives for one step (R3, R26, R70, R170): the reset input, the command port and the RND port. -/
structure HostInput where
  /-- the reset input: when it is set, the command presented with it has no effect (R168) -/
  reset : Bool
  /-- the word on the command port (R70) -/
  word  : CmdWord
  /-- the value on the RND port (R26) -/
  rnd   : Word
  deriving DecidableEq, Repr

/-- The machine. The first eleven fields are R20's rows, one for one. `rnd` and `pending` are the block's inputs (R20: "not
state"), held here so that one step is a function of the state (log 2, DESIGN CHOICE). `maxData` is the parameter of R5
(log 1, DESIGN CHOICE). `draw` is the model's own (log 5, DESIGN CHOICE). -/
structure State where
  /-- HDR (R21) -/
  hdr     : Header
  /-- PKT (R22): addresses 0 to MAX_PKT-1 -/
  pkt     : Memory
  /-- PLEN (R23) -/
  plen    : Word
  /-- DATA (R24): addresses 0 to MAX_DATA-1 -/
  data    : Memory
  /-- DLEN (R25) -/
  dlen    : Word
  /-- RES (R27) -/
  res     : Word
  /-- ORIG_SEQ (R28) -/
  origSeq : Word
  /-- CSTATE (R29) -/
  cstate  : CState
  /-- TXV (R32) -/
  txv     : Bool
  /-- FAULT (R33) -/
  fault   : Bool
  /-- ERR (R33) -/
  err     : Err
  /-- MAX_DATA (R5): 0 to 65530, so that MAX_PKT = MAX_DATA + 5 is 5 to 65535; no command and no reset writes it -/
  maxData : Fin 65531
  /-- the number of the last reset: the argument of the free values of PKT and DATA (R38, R170; two blocks with the same
  number share them, log 12) -/
  draw    : Nat
  /-- the RND port, as the host drives it with the command being run (R26) -/
  rnd     : Word
  /-- what the host will drive, one entry a step, oldest first (R1, R10) -/
  pending : List HostInput
  deriving DecidableEq, Repr

/-- Where the model stops. The spec's own errors are no stops: fault entry (R152) is a next state. -/
inductive Fault where
  /-- Raised by SPLIT and C_RECV (the echo) in a state with PLEN > MAX_PKT: the payload would reach past PKT, to bytes that
  do not exist (R22, R53). No run reaches such a state (R23). Safe (log 8). -/
  | pktOverrun
  /-- Raised by ASSEMBLE, BUILD_DATA and C_SEND in a state with DLEN > MAX_DATA: the data segment would reach past DATA, to
  bytes that do not exist (R24, R53). No run reaches such a state (R25). Safe (log 8). -/
  | dataOverrun
  deriving DecidableEq, Repr

/-- Why a command has no meaning. -/
inductive Refusal where
  /-- The command is not modelled. No arm of `exec` answers it: every command of R76 has its meaning. Safe. -/
  | notModelled (mnemonic : String)
  deriving DecidableEq, Repr

/-- The state right after the reset numbered `draw` of a block whose DATA has `maxData` bytes (R38, R170): every register
at the value R38 gives, PKT and DATA with no byte written, so each reads as the free value drawn. -/
def State.resetWith (maxData : Fin 65531) (draw : Nat) (rnd : Word) (pending : List HostInput) : State where
  hdr     := emptyHdr
  pkt     := []
  plen    := 0#16
  data    := []
  dlen    := 0#16
  res     := 0#16
  origSeq := 0#16
  cstate  := .idle
  txv     := false
  fault   := false
  err     := .noError
  maxData := maxData
  draw    := draw
  rnd     := rnd
  pending := pending

/-- Right after reset (R38), with MAX_PKT = 64 (log 1), RND driven to 0 (log 6), the first draw (log 5; two blocks at
this state have the same draw, so equal unwritten bytes: log 12, DESIGN CHOICE), and nothing presented by the host yet
(log 3). -/
def State.reset : State := State.resetWith 59 0 0#16 []

end Sys2Proof.Machine
end

