-- ==== Sys2Proof/Machine/Ops.lean ====
section
/-! DEFINITION. The shared operations: byte stores, the header register, one setter a register, the output ports, fault
entry, reset, the prologue every command runs, and what the host presents to a step. -/

namespace Sys2Proof.Machine

/-- What a step or a meaning answers. -/
abbrev Result := Host.Outcome State Fault Refusal

/-- Run `k` on the next state; a stop stays a stop. -/
def andThen (r : Result) (k : State → Result) : Result :=
  match r with
  | .next s => k s
  | .fault f => .fault f
  | .refused f => .refused f

/-! ### Byte stores -/

/-- The byte written at address `a`, if one was. -/
def lookupCell : Memory → Nat → Option Byte
  | [], _ => none
  | (b, v) :: m, a => if a = b then some v else lookupCell m a

/-- Write one byte, keeping the addresses strictly rising. -/
def storeCell : Memory → Nat → Byte → Memory
  | [], a, v => [(a, v)]
  | (b, w) :: m, a, v =>
    if a < b then (a, v) :: (b, w) :: m
    else if a = b then (a, v) :: m
    else (b, w) :: storeCell m a v

/-- Write a byte string at addresses `a`, `a+1`, … -/
def storeBytes : Memory → Nat → List Byte → Memory
  | m, _, [] => m
  | m, a, v :: vs => storeBytes (storeCell m a v) (a + 1) vs

/-- The `n` bytes that `rd` reads at `a`, `a+1`, … -/
def bytesFrom (rd : Nat → Byte) : Nat → Nat → List Byte
  | _, 0 => []
  | a, n + 1 => rd a :: bytesFrom rd (a + 1) n

/-- MAX_DATA (R5). -/
def maxDataOf (s : State) : Nat := s.maxData.val

/-- MAX_PKT (R5): MAX_DATA = MAX_PKT - 5. -/
def maxPktOf (s : State) : Nat := s.maxData.val + Config.hdrLen

/-- PKT[a] (R22): the byte last written, or the value drawn at reset (R38). -/
def readPkt (s : State) (a : Nat) : Byte := (lookupCell s.pkt a).getD (Config.pktAtReset s.draw a)

/-- DATA[a] (R24): the byte last written, or the value drawn at reset (R38). -/
def readData (s : State) (a : Nat) : Byte := (lookupCell s.data a).getD (Config.dataAtReset s.draw a)

/-! ### Header fields: the one place of the byte order (R50, R51) -/

/-- SEQ(H) = H[1] ++ H[0] (R8, R50). -/
def hdrSeq (h : Header) : Word := h.seqHi ++ h.seqLo

/-- ACKN(H) = H[3] ++ H[2] (R8, R50). -/
def hdrAck (h : Header) : Word := h.ackHi ++ h.ackLo

/-- Writing v puts v[7:0] at the lower offset and v[15:8] at the next (R51). -/
def setSeq (h : Header) (v : Word) : Header :=
  { h with seqLo := v.extractLsb' 0 8, seqHi := v.extractLsb' 8 8 }

/-- As `setSeq`, for the ack number (R51). -/
def setAck (h : Header) (v : Word) : Header :=
  { h with ackLo := v.extractLsb' 0 8, ackHi := v.extractLsb' 8 8 }

/-- Writing the flags byte. -/
def setFlags (h : Header) (v : Byte) : Header := { h with flags := v }

/-- The bytes HDR[0] to HDR[4] in order (R21). -/
def hdrBytes (h : Header) : List Byte := [h.seqLo, h.seqHi, h.ackLo, h.ackHi, h.flags]

/-! ### Setters, one a register -/

def setHdr (s : State) (v : Header) : State := { s with hdr := v }
def setPkt (s : State) (v : Memory) : State := { s with pkt := v }
def setPlen (s : State) (v : Word) : State := { s with plen := v }
def setData (s : State) (v : Memory) : State := { s with data := v }
def setDlen (s : State) (v : Word) : State := { s with dlen := v }
def setRes (s : State) (v : Word) : State := { s with res := v }
def setOrigSeq (s : State) (v : Word) : State := { s with origSeq := v }
def setCstate (s : State) (v : CState) : State := { s with cstate := v }
def setTxv (s : State) (v : Bool) : State := { s with txv := v }

/-- The host's inputs: what stays pending, and RND as it is driven now. -/
def setInput (s : State) (rnd : Word) (pending : List HostInput) : State := { s with rnd := rnd, pending := pending }

/-! ### Fault entry and reset -/

/-- Fault entry (R152): FAULT <- 1, ERR <- e, and nothing else. There is no return from it (R157). -/
def takeFault (e : Err) (s : State) : State := { s with fault := true, err := e }

/-- The reset input (R170): every piece of state to its value in R38, PKT and DATA drawn anew; the parameter stays. It is
the only way out of a fault (R157). -/
def assertReset (s : State) : State := State.resetWith s.maxData (s.draw + 1) s.rnd s.pending

/-! ### The prologue of every command -/

/-- The first of two checks that fails decides the error (R153). -/
def firstError : Option Err → Option Err → Option Err
  | some e, _ => some e
  | none, c => c

/-- Every command (R9, R153, R155): a halted block ignores it; else a failed check enters the fault and the command writes
nothing; else TXV <- 0 and the body runs. -/
def command (check : Option Err) (body : State → Result) (s : State) : Result :=
  if s.fault then .next s
  else
    match check with
    | some e => .next (takeFault e s)
    | none => body (setTxv s false)

/-- A word that is no command (R77, R78): ILLEGAL_COMMAND and no other effect; ignored by a halted block (R155). -/
def illegalCommand (s : State) : Result := command (some .illegalCommand) .next s

/-! ### The output ports -/

/-- The 3-bit code of a connection state (R29). -/
def cstateCode : CState → BitVec 3
  | .idle => 0#3
  | .cSynSent => 1#3
  | .cEstablished => 2#3
  | .cEchoWait => 3#3
  | .cClosing => 4#3
  | .sSynRcvd => 5#3
  | .sEstablished => 6#3
  | .closed => 7#3

/-- The 3-bit ERR code (R33, R154). -/
def errCode : Err → BitVec 3
  | .noError => 0#3
  | .illegalCommand => 1#3
  | .malformedHeader => 2#3
  | .indexRange => 3#3
  | .illegalState => 4#3

/-- The STATUS port (R30): bits 15:8 zero, ERR in 7:5, FAULT in 4, TXV in 3, CSTATE in 2:0. -/
def statusPort (s : State) : Word :=
  (0#8 : BitVec 8) ++ errCode s.err ++ BitVec.ofBool s.fault ++ BitVec.ofBool s.txv ++ cstateCode s.cstate

/-- The RES port (R27, R39). -/
def resPort (s : State) : Word := s.res

/-- The "connected" column of R29: derived from CSTATE, not a bit of its own. -/
def connected (s : State) : Bool :=
  match s.cstate with
  | .cEstablished => true
  | .cEchoWait => true
  | .cClosing => true
  | .sEstablished => true
  | .idle => false
  | .cSynSent => false
  | .sSynRcvd => false
  | .closed => false

/-- The payload PKT[0..PLEN-1] (R22, R36). -/
def payload (s : State) : List Byte := bytesFrom (readPkt s) 0 s.plen.toNat

/-- The data segment DATA[0..DLEN-1] (R24, R36). -/
def dataSegment (s : State) : List Byte := bytesFrom (readData s) 0 s.dlen.toNat

/-! ### What the host presents to a step -/

/-- What a step finds at its inputs. -/
inductive Presented where
  /-- the host has presented nothing: the block is idle and keeps all state (R167) -/
  | nothing
  /-- the reset input is asserted (R170) -/
  | reset (s : State)
  /-- a command word is presented (R70) -/
  | word (w : CmdWord) (s : State)

/-- Take the host's next input, drive RND from it, and leave the later ones pending (R1, R26, R31). With the reset input
set, the word has no effect (R168). -/
def present (s : State) : Presented :=
  match s.pending with
  | [] => .nothing
  | inp :: rest =>
    if inp.reset then .reset (setInput s inp.rnd rest)
    else .word inp.word (setInput s inp.rnd rest)

end Sys2Proof.Machine
end

