-- ==== Sys2Proof/Machine/Flags.lean ====
section
/-! DEFINITION. The flags byte (10_state.md R34, R35), its three operations (40_header_codec.md R94 to R96), and the three
acknowledgement transformations of a header (42_packet_builders.md R117 to R119). -/

namespace Sys2Proof.Machine

/-- SYN, bit 7 (R34). -/
def maskSyn : Byte := 0x80#8

/-- SEQ, bit 6: storage only (R34, R35). -/
def maskSeq : Byte := 0x40#8

/-- ACK, bit 5 (R34). -/
def maskAck : Byte := 0x20#8

/-- PSH, bit 4 (R34). -/
def maskPsh : Byte := 0x10#8

/-- FIN, bit 3 (R34). -/
def maskFin : Byte := 0x08#8

/-- The OR of SET_FLAG (R94). -/
def orMask (flags mask : Byte) : Byte := flags ||| mask

/-- The AND-NOT of CLR_FLAG, NOT over 8 bits (R95). -/
def clearMask (flags mask : Byte) : Byte := flags &&& ~~~mask

/-- Any masked bit set (R96). -/
def anyMask (flags mask : Byte) : Bool := decide (flags &&& mask ≠ 0#8)

/-- ClientAckXf (R117): SYN cleared, ACK set; the new ack is the received sequence number plus 1 mod 2^16; then the
sequence number is 0. -/
def clientAckXf (h : Header) : Header :=
  setSeq (setAck (setFlags h (orMask (clearMask h.flags maskSyn) maskAck)) (hdrSeq h + 1#16)) 0#16

/-- ServerAckXf (R118): ACK set, SYN kept; ack number plus 1 mod 2^16 (90_conflicts.md C1); a new random sequence number. -/
def serverAckXf (h : Header) (r : Word) : Header :=
  setSeq (setAck (setFlags h (orMask h.flags maskAck)) (hdrAck h + 1#16)) (r &&& Config.ackSeqMask)

/-- CloseAckXf (R119): FIN set, ACK not touched (90_conflicts.md C2); ack number plus 1 mod 2^16; a new random sequence
number. -/
def closeAckXf (h : Header) (r : Word) : Header :=
  setSeq (setAck (setFlags h (orMask h.flags maskFin)) (hdrAck h + 1#16)) (r &&& Config.ackSeqMask)

end Sys2Proof.Machine
end

