-- ==== Sys2Proof/Machine/Operands.lean ====
section
/-! DEFINITION. The operand forms: the checks of an index, a length, a state and a header (60_exceptions.md R153), the
results written to RES, and the implicit operands HDR, PKT and DATA (41_framing.md R111, R100, R101; R115 to R122). -/

namespace Sys2Proof.Machine

/-! ### Checks -/

/-- An index operand (R75, R102 to R105): in range when it is below the buffer's size, else INDEX_RANGE. -/
def checkIndex (idx : Word) (size : Nat) : Option Err :=
  if idx.toNat < size then none else some .indexRange

/-- A length operand (R73, R106, R108): in range when it is at most the buffer's size, else INDEX_RANGE. -/
def checkLength (len : Word) (size : Nat) : Option Err :=
  if len.toNat ≤ size then none else some .indexRange

/-- An FSM command's state check (R153 step 3): CSTATE is one of the states its rule accepts, else ILLEGAL_STATE. -/
def checkState (accepted : List CState) (s : State) : Option Err :=
  if s.cstate ∈ accepted then none else some .illegalState

/-- HdrOK (R111): PLEN >= 5, else MALFORMED_HEADER. -/
def checkHeader (s : State) : Option Err :=
  if 5 ≤ s.plen.toNat then none else some .malformedHeader

/-! ### Results -/

/-- zext_16 of a byte (R8). -/
def zext16 (v : Byte) : Word := v.setWidth 16

/-- A Boolean result is 0x0000 or 0x0001 (R27). -/
def boolWord (b : Bool) : Word := if b then 0x0001#16 else 0x0000#16

/-! ### Header transfers (R111) -/

/-- HDR[k] <- PKT[k] for k = 0..4. -/
def loadHdr (s : State) : State :=
  setHdr s ⟨readPkt s 0, readPkt s 1, readPkt s 2, readPkt s 3, readPkt s 4⟩

/-- PKT[k] <- HDR[k] for k = 0..4. PKT always has at least 5 bytes (R5). -/
def storeHdr (s : State) : State := setPkt s (storeBytes s.pkt 0 (hdrBytes s.hdr))

/-! ### Bodies that more than one command performs -/

/-- The body of ASSEMBLE (R100): PKT <- HDR then DATA[0..DLEN-1]; PLEN <- 5 + DLEN. -/
def assembleBody (s : State) : Result :=
  if s.dlen.toNat ≤ maxDataOf s then
    .next (setPlen (setPkt s (storeBytes s.pkt 0 (hdrBytes s.hdr ++ dataSegment s))) (5#16 + s.dlen))
  else .fault .dataOverrun

/-- The body of SPLIT, after its check (R101): HDR <- PKT[0..4]; DLEN <- PLEN - 5; DATA[k] <- PKT[5+k]. -/
def splitBody (s : State) : Result :=
  if s.plen.toNat ≤ maxPktOf s then
    .next (setDlen (setData (loadHdr s) (storeBytes s.data 0 (bytesFrom (readPkt s) 5 (s.plen.toNat - 5)))) (s.plen - 5#16))
  else .fault .pktOverrun

/-- Put a fresh header in HDR and PKT[0..4], and make the payload 5 bytes long (R120, R121). -/
def freshPacket (h : Header) (s : State) : State := setPlen (storeHdr (setHdr s h)) 5#16

/-- The sequence number of a connection request: RND AND CONN_SEQ_MASK (R120). -/
def connSeq (s : State) : Word := s.rnd &&& Config.connSeqMask

/-- The body of BUILD_CONN_REQ (R120). -/
def connReqBody (s : State) : State :=
  setOrigSeq (freshPacket (setFlags (setSeq emptyHdr (connSeq s)) maskSyn) s) (connSeq s)

/-- The body of BUILD_DISC_REQ (R121). -/
def discReqBody (s : State) : State := freshPacket (setFlags emptyHdr maskFin) s

/-- The body of BUILD_DATA (R122): the header {PSH}, then the body of ASSEMBLE. -/
def dataPacketBody (s : State) : Result := assembleBody (setHdr s (setFlags emptyHdr maskPsh))

/-- LoadHdr; HDR <- xf(HDR); StoreHdr (R115, R123 to R125): the packet in PKT is changed in place. -/
def ackInPlace (xf : Header → Header) (s : State) : State :=
  storeHdr (setHdr (loadHdr s) (xf (loadHdr s).hdr))

end Sys2Proof.Machine
end

