-- ==== Sys2Proof/Machine/Builders.lean ====
section
/-! DEFINITION. The packet builder commands (42_packet_builders.md R115, R120 to R125). None of them sets TXV (R115). -/

namespace Sys2Proof.Machine

/-- BUILD_CONN_REQ (R120). -/
def execBuildConnReq (s : State) : Result := command none (fun s => .next (connReqBody s)) s

/-- BUILD_DISC_REQ (R121). -/
def execBuildDiscReq (s : State) : Result := command none (fun s => .next (discReqBody s)) s

/-- BUILD_DATA (R122). -/
def execBuildData (s : State) : Result := command none dataPacketBody s

/-- BUILD_CLIENT_ACK (R123). -/
def execBuildClientAck (s : State) : Result :=
  command (checkHeader s) (fun s => .next (ackInPlace clientAckXf s)) s

/-- BUILD_SERVER_ACK (R124). -/
def execBuildServerAck (s : State) : Result :=
  command (checkHeader s) (fun s => .next (ackInPlace (fun h => serverAckXf h s.rnd) s)) s

/-- BUILD_CLOSE_ACK (R125). -/
def execBuildCloseAck (s : State) : Result :=
  command (checkHeader s) (fun s => .next (ackInPlace (fun h => closeAckXf h s.rnd) s)) s

end Sys2Proof.Machine
end

