-- ==== Sys2Proof/Machine/Connection.lean ====
section
/-! DEFINITION. The connection state machine commands (44_connection_fsm.md R140 to R149). None of them reads RES or calls a
validator (R136); the only flag one reads is FIN, in S_ESTABLISHED (R141). -/

namespace Sys2Proof.Machine

/-- TXV <- 1 and CSTATE <- c: the payload in PKT[0..PLEN-1] is to be sent (R32). -/
def sendThen (c : CState) (s : State) : State := setCstate (setTxv s true) c

/-- C_CONNECT (R142). -/
def execCConnect (s : State) : Result :=
  command (checkState [.idle] s) (fun s => .next (sendThen .cSynSent (connReqBody s))) s

/-- The body of C_RECV, by the state it is in (R143). -/
def cRecvBody (s : State) : Result :=
  match s.cstate with
  | .cSynSent => .next (sendThen .cEstablished (ackInPlace clientAckXf s))
  | .cEchoWait => andThen (splitBody s) fun t => .next (setCstate (setRes t t.dlen) .cEstablished)
  | .cClosing => .next (sendThen .closed (ackInPlace clientAckXf s))
  | .idle => .next s
  | .cEstablished => .next s
  | .sSynRcvd => .next s
  | .sEstablished => .next s
  | .closed => .next s

/-- C_RECV (R143): in C_SYN_SENT, C_ECHO_WAIT and C_CLOSING; the check keeps every other state from the body. -/
def execCRecv (s : State) : Result :=
  command (firstError (checkState [.cSynSent, .cEchoWait, .cClosing] s) (checkHeader s)) cRecvBody s

/-- C_SEND (R144). -/
def execCSend (s : State) : Result :=
  command (checkState [.cEstablished] s)
    (fun s => andThen (dataPacketBody s) fun t => .next (sendThen .cEchoWait t)) s

/-- C_CLOSE (R145). -/
def execCClose (s : State) : Result :=
  command (checkState [.cEstablished] s) (fun s => .next (sendThen .cClosing (discReqBody s))) s

/-- S_RECV reads a header, so needs HdrOK, in IDLE and S_ESTABLISHED only (R146; 90_conflicts.md C5). -/
def checkServerHeader (s : State) : Option Err :=
  if s.cstate = .sSynRcvd then none else checkHeader s

/-- S_RECV in S_ESTABLISHED (R146): LoadHdr, then on FIN the close ack, else the echo with PKT and PLEN unchanged. -/
def serveEstablished (s : State) : State :=
  if anyMask (loadHdr s).hdr.flags maskFin then
    sendThen .closed (ackInPlace (fun h => closeAckXf h s.rnd) s)
  else setTxv (loadHdr s) true

/-- The body of S_RECV, by the state it is in (R146). -/
def sRecvBody (s : State) : Result :=
  match s.cstate with
  | .idle => .next (sendThen .sSynRcvd (ackInPlace (fun h => serverAckXf h s.rnd) s))
  | .sSynRcvd => .next (setCstate s .sEstablished)
  | .sEstablished => .next (serveEstablished s)
  | .cSynSent => .next s
  | .cEstablished => .next s
  | .cEchoWait => .next s
  | .cClosing => .next s
  | .closed => .next s

/-- S_RECV (R146): in IDLE, S_SYN_RCVD and S_ESTABLISHED; the check keeps every other state from the body. -/
def execSRecv (s : State) : Result :=
  command (firstError (checkState [.idle, .sSynRcvd, .sEstablished] s) (checkServerHeader s)) sRecvBody s

/-- ABORT (R147): the host reports a Transport-Failure; CSTATE <- CLOSED, in every state. -/
def execAbort (s : State) : Result := command none (fun s => .next (setCstate s .closed)) s

end Sys2Proof.Machine
end

