-- ==== Sys2Proof/Machine/Framing.lean ====
section
/-! DEFINITION. The framing and buffer commands (41_framing.md R100 to R109). -/

namespace Sys2Proof.Machine

/-- ASSEMBLE (R100). -/
def execAssemble (s : State) : Result := command none assembleBody s

/-- SPLIT (R101): MALFORMED_HEADER when PLEN < 5 (90_conflicts.md C8). -/
def execSplit (s : State) : Result := command (checkHeader s) splitBody s

/-- WR_PKT (R102): PKT[idx16] <- val8. -/
def execWrPkt (idx : Word) (val : Byte) (s : State) : Result :=
  command (checkIndex idx (maxPktOf s)) (fun s => .next (setPkt s (storeCell s.pkt idx.toNat val))) s

/-- RD_PKT (R103): RES <- zext_16(PKT[idx16]). -/
def execRdPkt (idx : Word) (s : State) : Result :=
  command (checkIndex idx (maxPktOf s)) (fun s => .next (setRes s (zext16 (readPkt s idx.toNat)))) s

/-- WR_DATA (R104): DATA[idx16] <- val8. -/
def execWrData (idx : Word) (val : Byte) (s : State) : Result :=
  command (checkIndex idx (maxDataOf s)) (fun s => .next (setData s (storeCell s.data idx.toNat val))) s

/-- RD_DATA (R105): RES <- zext_16(DATA[idx16]). -/
def execRdData (idx : Word) (s : State) : Result :=
  command (checkIndex idx (maxDataOf s)) (fun s => .next (setRes s (zext16 (readData s idx.toNat)))) s

/-- SET_PLEN (R106): PLEN <- imm16, at most MAX_PKT. -/
def execSetPlen (imm : Word) (s : State) : Result :=
  command (checkLength imm (maxPktOf s)) (fun s => .next (setPlen s imm)) s

/-- GET_PLEN (R107): RES <- PLEN. -/
def execGetPlen (s : State) : Result := command none (fun s => .next (setRes s s.plen)) s

/-- SET_DLEN (R108): DLEN <- imm16, at most MAX_DATA. -/
def execSetDlen (imm : Word) (s : State) : Result :=
  command (checkLength imm (maxDataOf s)) (fun s => .next (setDlen s imm)) s

/-- GET_DLEN (R109): RES <- DLEN. -/
def execGetDlen (s : State) : Result := command none (fun s => .next (setRes s s.dlen)) s

end Sys2Proof.Machine
end

