-- ==== Sys2Proof/Machine/HeaderCodec.lean ====
section
/-! DEFINITION. The header codec commands (40_header_codec.md R90 to R98). -/

namespace Sys2Proof.Machine

/-- ENC_SEQ (R90): HDR[0] <- imm16[7:0]; HDR[1] <- imm16[15:8]. -/
def execEncSeq (imm : Word) (s : State) : Result :=
  command none (fun s => .next (setHdr s (setSeq s.hdr imm))) s

/-- DEC_SEQ (R91): RES <- HDR[1] ++ HDR[0]. -/
def execDecSeq (s : State) : Result :=
  command none (fun s => .next (setRes s (hdrSeq s.hdr))) s

/-- ENC_ACK (R92): HDR[2] <- imm16[7:0]; HDR[3] <- imm16[15:8]. -/
def execEncAck (imm : Word) (s : State) : Result :=
  command none (fun s => .next (setHdr s (setAck s.hdr imm))) s

/-- DEC_ACK (R93): RES <- HDR[3] ++ HDR[2]. -/
def execDecAck (s : State) : Result :=
  command none (fun s => .next (setRes s (hdrAck s.hdr))) s

/-- SET_FLAG (R94): HDR[4] <- HDR[4] OR mask8. -/
def execSetFlag (mask : Byte) (s : State) : Result :=
  command none (fun s => .next (setHdr s (setFlags s.hdr (orMask s.hdr.flags mask)))) s

/-- CLR_FLAG (R95): HDR[4] <- HDR[4] AND (NOT mask8). -/
def execClrFlag (mask : Byte) (s : State) : Result :=
  command none (fun s => .next (setHdr s (setFlags s.hdr (clearMask s.hdr.flags mask)))) s

/-- HAS_FLAG (R96): RES <- 1 when any masked bit of HDR[4] is set, else 0. -/
def execHasFlag (mask : Byte) (s : State) : Result :=
  command none (fun s => .next (setRes s (boolWord (anyMask s.hdr.flags mask)))) s

/-- CLR_HDR (R97): HDR <- the empty header. -/
def execClrHdr (s : State) : Result :=
  command none (fun s => .next (setHdr s emptyHdr)) s

/-- DEC_FLAGS (R98): RES <- zext_16(HDR[4]). -/
def execDecFlags (s : State) : Result :=
  command none (fun s => .next (setRes s (zext16 s.hdr.flags))) s

end Sys2Proof.Machine
end

