-- ==== Sys2Proof/Machine/SystemCommands.lean ====
section
/-! DEFINITION. The system command (45_system.md). -/

namespace Sys2Proof.Machine

/-- NOP (R150): nothing beyond the prologue, which clears TXV. -/
def execNop (s : State) : Result := command none .next s

end Sys2Proof.Machine
end

