-- ==== Sys2Proof/Machine/Validators.lean ====
section
/-! DEFINITION. The validator commands (43_validators.md R130 to R135): they test HDR and write RES; a false result is no
error (R130). -/

namespace Sys2Proof.Machine

/-- V_CONN_REQ (R131): SYN is set. -/
def execVConnReq (s : State) : Result :=
  command none (fun s => .next (setRes s (boolWord (anyMask s.hdr.flags maskSyn)))) s

/-- V_CLIENT_ACK (R132): ACK is set. -/
def execVClientAck (s : State) : Result :=
  command none (fun s => .next (setRes s (boolWord (anyMask s.hdr.flags maskAck)))) s

/-- The condition of V_SERVER_ACK (R133): SYN and ACK set, and ACKN = ORIG_SEQ + 1 mod 2^16. -/
def serverAckOk (h : Header) (orig : Word) : Bool :=
  anyMask h.flags maskSyn && anyMask h.flags maskAck && decide (hdrAck h = orig + 1#16)

/-- V_SERVER_ACK (R133). -/
def execVServerAck (s : State) : Result :=
  command none (fun s => .next (setRes s (boolWord (serverAckOk s.hdr s.origSeq)))) s

/-- V_DISC_REQ (R134): FIN is set. -/
def execVDiscReq (s : State) : Result :=
  command none (fun s => .next (setRes s (boolWord (anyMask s.hdr.flags maskFin)))) s

/-- CAPTURE_ORIG (R135): ORIG_SEQ <- HDR[1] ++ HDR[0]. -/
def execCaptureOrig (s : State) : Result :=
  command none (fun s => .next (setOrigSeq s (hdrSeq s.hdr))) s

end Sys2Proof.Machine
end

