-- ==== Sys2Proof/Machine/Dispatch.lean ====
section
/-! DEFINITION. The dispatch: one arm per command of 30_encoding.md R76, each one direct call of its meaning. -/

namespace Sys2Proof.Machine

def exec (i : Instr) (s : State) : Host.Outcome State Fault Refusal :=
  match i with
  | .nop => Sys2Proof.Machine.execNop s
  | .encSeq imm => Sys2Proof.Machine.execEncSeq imm s
  | .decSeq => Sys2Proof.Machine.execDecSeq s
  | .encAck imm => Sys2Proof.Machine.execEncAck imm s
  | .decAck => Sys2Proof.Machine.execDecAck s
  | .setFlag mask => Sys2Proof.Machine.execSetFlag mask s
  | .clrFlag mask => Sys2Proof.Machine.execClrFlag mask s
  | .hasFlag mask => Sys2Proof.Machine.execHasFlag mask s
  | .clrHdr => Sys2Proof.Machine.execClrHdr s
  | .decFlags => Sys2Proof.Machine.execDecFlags s
  | .assemble => Sys2Proof.Machine.execAssemble s
  | .split => Sys2Proof.Machine.execSplit s
  | .wrPkt idx val => Sys2Proof.Machine.execWrPkt idx val s
  | .rdPkt idx => Sys2Proof.Machine.execRdPkt idx s
  | .wrData idx val => Sys2Proof.Machine.execWrData idx val s
  | .rdData idx => Sys2Proof.Machine.execRdData idx s
  | .setPlen imm => Sys2Proof.Machine.execSetPlen imm s
  | .getPlen => Sys2Proof.Machine.execGetPlen s
  | .setDlen imm => Sys2Proof.Machine.execSetDlen imm s
  | .getDlen => Sys2Proof.Machine.execGetDlen s
  | .buildConnReq => Sys2Proof.Machine.execBuildConnReq s
  | .buildDiscReq => Sys2Proof.Machine.execBuildDiscReq s
  | .buildData => Sys2Proof.Machine.execBuildData s
  | .buildClientAck => Sys2Proof.Machine.execBuildClientAck s
  | .buildServerAck => Sys2Proof.Machine.execBuildServerAck s
  | .buildCloseAck => Sys2Proof.Machine.execBuildCloseAck s
  | .vConnReq => Sys2Proof.Machine.execVConnReq s
  | .vClientAck => Sys2Proof.Machine.execVClientAck s
  | .vServerAck => Sys2Proof.Machine.execVServerAck s
  | .vDiscReq => Sys2Proof.Machine.execVDiscReq s
  | .captureOrig => Sys2Proof.Machine.execCaptureOrig s
  | .cConnect => Sys2Proof.Machine.execCConnect s
  | .cRecv => Sys2Proof.Machine.execCRecv s
  | .cSend => Sys2Proof.Machine.execCSend s
  | .cClose => Sys2Proof.Machine.execCClose s
  | .sRecv => Sys2Proof.Machine.execSRecv s
  | .abort => Sys2Proof.Machine.execAbort s

end Sys2Proof.Machine
end

