-- ==== Sys2Proof/Machine/Step.lean ====
section
/-! DEFINITION. One step of the block (00_scope.md R1): it takes what the host presents, and runs it. -/

namespace Sys2Proof.Machine

/-- A presented command word: decode it and run its rule (R10); a word that is no command raises ILLEGAL_COMMAND (R77,
R78). -/
def runWord (w : CmdWord) (s : State) : Host.Outcome State Fault Refusal :=
  match decode w with
  | .ok i => exec i s
  | .error _ => illegalCommand s

/-- One step: idle when the host presents nothing (R167), reset when the reset input is set (R168, R170), else the command
presented (R1). -/
def step (s : State) : Host.Outcome State Fault Refusal :=
  match present s with
  | .nothing => .next s
  | .reset t => .next (assertReset t)
  | .word w t => runWord w t

/-- The host presents the word `w` (numbered as spec/opcode_table.json numbers it; bits above `nbits` are 0) before what was
pending, with RND at its present level, so that the next step runs it (log 3). -/
def State.withFetchWord (s : State) (nbits w : Nat) : State :=
  { s with pending := ⟨false, BitVec.ofNat 32 (w % 2 ^ nbits), s.rnd⟩ :: s.pending }

end Sys2Proof.Machine
end

