-- ==== Sys2Proof/Machine/HostSide.lean ====
section
/-! DEFINITION. The host's side of the interface (00_scope.md R2 to R4, R10; 30_encoding.md R83; 44_connection_fsm.md R148;
70_reset_and_hazards.md R176, R181, R182): command lists, the delivery and read-out of payloads, and two blocks, a client
and a server, joined by a host that relays datagrams (log 11). The block's own step does not use this file. -/

namespace Sys2Proof.Machine

/-- Drive the RND port (R26). -/
def driveRnd (s : State) (r : Word) : State := setInput s r s.pending

/-- Run a finite list of commands, each with the RND value the host drives for it (R10, R181). -/
def runCommands : List (Instr × Word) → State → Result
  | [], s => .next s
  | (i, r) :: rest, s => andThen (exec i (driveRnd s r)) (runCommands rest)

/-- Write the bytes `bs` at indexes `a`, `a+1`, … with the byte-write command `wr`. -/
def writeCommands (wr : Word → Byte → Instr) : Nat → List Byte → List Instr
  | _, [] => []
  | a, b :: bs => wr (BitVec.ofNat 16 a) b :: writeCommands wr (a + 1) bs

/-- The expansions of the pseudo-commands (R83). -/
def expandPseudo : Pseudo → List Instr
  | .deliver bytes => .setPlen (BitVec.ofNat 16 bytes.length) :: writeCommands .wrPkt 0 bytes
  | .loadData bytes => .setDlen (BitVec.ofNat 16 bytes.length) :: writeCommands .wrData 0 bytes
  | .hdr seq ack flags => [.clrHdr, .encSeq seq, .encAck ack, .setFlag flags]

/-- Run a pseudo-command's expansion. None of its commands samples RND (R26), which stays at its level. -/
def runPseudo (p : Pseudo) (s : State) : Result :=
  runCommands ((expandPseudo p).map fun i => (i, s.rnd)) s

/-- Hand a received datagram to the block: DELIVER (R3, R83). -/
def deliver (bytes : List Byte) (s : State) : Result := runPseudo (.deliver bytes) s

/-- RD_PKT `a`, `a+1`, …, `n` of them, each byte taken from the RES port (R39, R103). -/
def collectFrom : Nat → Nat → State → Option (List Byte × State)
  | _, 0, s => some ([], s)
  | a, n + 1, s =>
    match exec (.rdPkt (BitVec.ofNat 16 a)) s with
    | .next t =>
      match collectFrom (a + 1) n t with
      | some (bs, u) => some ((resPort t).setWidth 8 :: bs, u)
      | none => none
    | .fault _ => none
    | .refused _ => none

/-- Read the payload out: GET_PLEN, then RD_PKT 0 .. PLEN-1 (R3, R176). -/
def collect (s : State) : Option (List Byte × State) :=
  match exec .getPlen s with
  | .next t => collectFrom 0 (resPort t).toNat t
  | .fault _ => none
  | .refused _ => none

/-- Two blocks that share no state (R2, R165). Whether their unwritten PKT and DATA bytes are drawn apart is said by their
`draw` numbers: different numbers, independent free values; the same number, the same values (log 12, DESIGN CHOICE). -/
structure Endpoints where
  client : State
  server : State
  deriving DecidableEq, Repr

/-- One of the two. -/
inductive Side where
  | client
  | server
  deriving DecidableEq, Repr

/-- What the host does next: the schedule of 93_implementation_defined.md I17. -/
inductive HostAct where
  /-- drive one input of one block for one step -/
  | drive (side : Side) (inp : HostInput)
  /-- when that block asks for a send, read its payload out and deliver it to the other block -/
  | relay (source : Side)
  deriving DecidableEq, Repr

/-- One step of a block on one input; what else is pending stays (R1). -/
def driveOne (s : State) (inp : HostInput) : Option State :=
  match step { s with pending := inp :: s.pending } with
  | .next t => some t
  | .fault _ => none
  | .refused _ => none

/-- Carry a datagram from `src` to `dst`, when STATUS shows TXV set (R177) and no fault, and the payload fits in `dst`
(93_implementation_defined.md I18); else nothing is delivered (log 11). -/
def relayOne (src dst : State) : Option (State × State) :=
  if src.txv && !src.fault then
    match collect src with
    | some (bytes, src') =>
      if bytes.length ≤ maxPktOf dst then
        match deliver bytes dst with
        | .next dst' => some (src', dst')
        | .fault _ => none
        | .refused _ => none
      else some (src', dst)
    | none => none
  else some (src, dst)

/-- One act of the host on the pair. -/
def hostAct (a : HostAct) (e : Endpoints) : Option Endpoints :=
  match a with
  | .drive .client inp => (driveOne e.client inp).map fun c => { e with client := c }
  | .drive .server inp => (driveOne e.server inp).map fun s => { e with server := s }
  | .relay .client => (relayOne e.client e.server).map fun p => ⟨p.1, p.2⟩
  | .relay .server => (relayOne e.server e.client).map fun p => ⟨p.2, p.1⟩

/-- A schedule of the host (R181, R182). -/
def runSchedule : List HostAct → Endpoints → Option Endpoints
  | [], e => some e
  | a :: rest, e =>
    match hostAct a e with
    | some e' => runSchedule rest e'
    | none => none

end Sys2Proof.Machine
end

