-- ==== Sys2Proof/WellFormed.lean ====
section
/-! DEFINITION. Which command words are legal (30_encoding.md R71, R76 to R78), written as the spec's own table, apart from
the decoder, and which pseudo-commands are (R83). An `Instr` itself cannot be ill-formed: each operand has exactly the
width of its field (R73 to R75). -/

namespace Sys2Proof

/-- A row of the opcode map of R76. -/
structure OpcodeRow where
  opcode   : Byte
  mnemonic : String
  format   : Format
  deriving DecidableEq, Repr

/-- R76, system and header codec rows. -/
def codecRows : List OpcodeRow :=
  [⟨0x00, "NOP", .n⟩, ⟨0x10, "ENC_SEQ", .i⟩, ⟨0x11, "DEC_SEQ", .n⟩, ⟨0x12, "ENC_ACK", .i⟩, ⟨0x13, "DEC_ACK", .n⟩,
   ⟨0x14, "SET_FLAG", .m⟩, ⟨0x15, "CLR_FLAG", .m⟩, ⟨0x16, "HAS_FLAG", .m⟩, ⟨0x17, "CLR_HDR", .n⟩, ⟨0x18, "DEC_FLAGS", .n⟩]

/-- R76, framing and buffer rows. -/
def framingRows : List OpcodeRow :=
  [⟨0x20, "ASSEMBLE", .n⟩, ⟨0x21, "SPLIT", .n⟩, ⟨0x22, "WR_PKT", .b⟩, ⟨0x23, "RD_PKT", .x⟩, ⟨0x24, "WR_DATA", .b⟩,
   ⟨0x25, "RD_DATA", .x⟩, ⟨0x26, "SET_PLEN", .i⟩, ⟨0x27, "GET_PLEN", .n⟩, ⟨0x28, "SET_DLEN", .i⟩, ⟨0x29, "GET_DLEN", .n⟩]

/-- R76, packet builder rows. -/
def builderRows : List OpcodeRow :=
  [⟨0x30, "BUILD_CONN_REQ", .n⟩, ⟨0x31, "BUILD_DISC_REQ", .n⟩, ⟨0x32, "BUILD_DATA", .n⟩, ⟨0x33, "BUILD_CLIENT_ACK", .n⟩,
   ⟨0x34, "BUILD_SERVER_ACK", .n⟩, ⟨0x35, "BUILD_CLOSE_ACK", .n⟩]

/-- R76, validator and connection state machine rows. -/
def connectionRows : List OpcodeRow :=
  [⟨0x40, "V_CONN_REQ", .n⟩, ⟨0x41, "V_CLIENT_ACK", .n⟩, ⟨0x42, "V_SERVER_ACK", .n⟩, ⟨0x43, "V_DISC_REQ", .n⟩,
   ⟨0x44, "CAPTURE_ORIG", .n⟩, ⟨0x50, "C_CONNECT", .n⟩, ⟨0x51, "C_RECV", .n⟩, ⟨0x52, "C_SEND", .n⟩, ⟨0x53, "C_CLOSE", .n⟩,
   ⟨0x58, "S_RECV", .n⟩, ⟨0x5F, "ABORT", .n⟩]

/-- The opcode map: "exactly these 37" (R76). -/
def opcodeTable : List OpcodeRow := codecRows ++ framingRows ++ builderRows ++ connectionRows

/-- The must-be-zero bits of a format (R71). -/
def mustBeZero : Format → CmdWord
  | .n => 0x00FFFFFF#32
  | .i => 0x00FF0000#32
  | .m => 0x00FFFF00#32
  | .b => 0x00000000#32
  | .x => 0x000000FF#32

/-- A word is legal when its bits 31:24 are an opcode of R76 and the must-be-zero bits of that row's format are 0
(R76, R77, R78). -/
def legalWord (w : CmdWord) : Bool :=
  opcodeTable.any fun r => (w >>> 24 == r.opcode.zeroExtend 32) && (w &&& mustBeZero r.format == 0#32)

/-- The length bounds of R83's pseudo-commands in a block whose DATA has `maxData` bytes (MAX_PKT = MAX_DATA + 5). -/
def pseudoWellFormed (maxData : Nat) : Pseudo → Bool
  | .deliver bytes => decide (bytes.length ≤ maxData + 5)
  | .loadData bytes => decide (bytes.length ≤ maxData)
  | .hdr _ _ _ => true

end Sys2Proof
end

