-- ==== Sys2Proof/Machine/Assembler.lean ====
section
/-! DEFINITION. The spec's assembly form (30_encoding.md R81, R82) and pseudo-commands (R83): a line of text to the command
words it stands for. The block never sees it; it is the host's (log 10). -/

namespace Sys2Proof.Machine

/-- The value of a digit in base 16; base 10 uses those below 10 (R81). -/
def digitValue (c : Char) : Option Nat :=
  let n := c.toNat
  if 48 ≤ n ∧ n ≤ 57 then some (n - 48)
  else if 65 ≤ n ∧ n ≤ 70 then some (n - 55)
  else if 97 ≤ n ∧ n ≤ 102 then some (n - 87)
  else none

/-- Digits in a base, most significant first, onto `acc`. -/
def digits (base : Nat) : Nat → List Char → Option Nat
  | acc, [] => some acc
  | acc, c :: cs =>
    match digitValue c with
    | some d => if d < base then digits base (acc * base + d) cs else none
    | none => none

/-- "Numbers are decimal or 0x hexadecimal" (R81). -/
def number : List Char → Option Nat
  | [] => none
  | ['0', 'x'] => none
  | '0' :: 'x' :: c :: cs => digits 16 0 (c :: cs)
  | c :: cs => digits 10 0 (c :: cs)

/-- A 16-bit number. -/
def wordNumber (cs : List Char) : Option Word :=
  match number cs with
  | some n => if n < 65536 then some (BitVec.ofNat 16 n) else none
  | none => none

/-- An 8-bit number. -/
def byteNumber (cs : List Char) : Option Byte :=
  match number cs with
  | some n => if n < 256 then some (BitVec.ofNat 8 n) else none
  | none => none

/-- Cut at every `sep`. -/
def cutAt (sep : Char) : List Char → List (List Char)
  | [] => [[]]
  | c :: cs =>
    match cutAt sep cs with
    | [] => [[c]]
    | p :: ps => if c = sep then [] :: p :: ps else (c :: p) :: ps

/-- Every piece but the first begins with the space that follows its comma (R81). -/
def dropSpaces : List (List Char) → Option (List (List Char))
  | [] => some []
  | (' ' :: p) :: ps =>
    match dropSpaces ps with
    | some qs => some (p :: qs)
    | none => none
  | _ :: _ => none

/-- "the operands separated by a comma and a space" (R81). -/
def operands (cs : List Char) : Option (List (List Char)) :=
  match cutAt ',' cs with
  | [] => some []
  | p :: ps =>
    match dropSpaces ps with
    | some qs => some (p :: qs)
    | none => none

/-- The flag names of a mask operand (R82). -/
def flagName (cs : List Char) : Option Byte :=
  if cs = ['S', 'Y', 'N'] then some maskSyn
  else if cs = ['S', 'E', 'Q'] then some maskSeq
  else if cs = ['A', 'C', 'K'] then some maskAck
  else if cs = ['P', 'S', 'H'] then some maskPsh
  else if cs = ['F', 'I', 'N'] then some maskFin
  else none

/-- "A list assembles to the OR of its names. Any other name is an assembly error" (R82). -/
def flagList : List (List Char) → Option Byte
  | [] => some 0#8
  | p :: ps =>
    match flagName p, flagList ps with
    | some m, some ms => some (m ||| ms)
    | _, _ => none

/-- A mask operand: `#mask`, or flag names joined by `|` (R81, R82). -/
def maskOperand : List Char → Option Byte
  | '#' :: cs => byteNumber cs
  | cs => flagList (cutAt '|' cs)

/-- A `#` number of 16 bits. -/
def immOperand : List Char → Option Word
  | '#' :: cs => wordNumber cs
  | _ => none

/-- A `#` number of 8 bits. -/
def valOperand : List Char → Option Byte
  | '#' :: cs => byteNumber cs
  | _ => none

/-- A list of byte numbers. -/
def byteNumbers : List (List Char) → Option (List Byte)
  | [] => some []
  | p :: ps =>
    match byteNumber p, byteNumbers ps with
    | some b, some bs => some (b :: bs)
    | _, _ => none

/-- How a mnemonic takes its operands. -/
inductive AsmForm where
  | n (i : Instr)
  | i (c : Word → Instr)
  | m (c : Byte → Instr)
  | b (c : Word → Byte → Instr)
  | x (c : Word → Instr)

/-- The mnemonics of R76. -/
def asmTable : List (String × AsmForm) :=
  [("NOP", .n .nop), ("ENC_SEQ", .i .encSeq), ("DEC_SEQ", .n .decSeq), ("ENC_ACK", .i .encAck), ("DEC_ACK", .n .decAck),
   ("SET_FLAG", .m .setFlag), ("CLR_FLAG", .m .clrFlag), ("HAS_FLAG", .m .hasFlag), ("CLR_HDR", .n .clrHdr),
   ("DEC_FLAGS", .n .decFlags)] ++
  [("ASSEMBLE", .n .assemble), ("SPLIT", .n .split), ("WR_PKT", .b .wrPkt), ("RD_PKT", .x .rdPkt), ("WR_DATA", .b .wrData),
   ("RD_DATA", .x .rdData), ("SET_PLEN", .i .setPlen), ("GET_PLEN", .n .getPlen), ("SET_DLEN", .i .setDlen),
   ("GET_DLEN", .n .getDlen)] ++
  [("BUILD_CONN_REQ", .n .buildConnReq), ("BUILD_DISC_REQ", .n .buildDiscReq), ("BUILD_DATA", .n .buildData),
   ("BUILD_CLIENT_ACK", .n .buildClientAck), ("BUILD_SERVER_ACK", .n .buildServerAck),
   ("BUILD_CLOSE_ACK", .n .buildCloseAck)] ++
  [("V_CONN_REQ", .n .vConnReq), ("V_CLIENT_ACK", .n .vClientAck), ("V_SERVER_ACK", .n .vServerAck),
   ("V_DISC_REQ", .n .vDiscReq), ("CAPTURE_ORIG", .n .captureOrig)] ++
  [("C_CONNECT", .n .cConnect), ("C_RECV", .n .cRecv), ("C_SEND", .n .cSend), ("C_CLOSE", .n .cClose),
   ("S_RECV", .n .sRecv), ("ABORT", .n .abort)]

/-- The command a form makes of its operand pieces (R81). -/
def assembleForm (f : AsmForm) (ops : List (List Char)) : Option Instr :=
  match f, ops with
  | .n c, [] => some c
  | .i c, [p] => (immOperand p).map c
  | .m c, [p] => (maskOperand p).map c
  | .x c, [p] => (wordNumber p).map c
  | .b c, [p, q] =>
    match wordNumber p, valOperand q with
    | some idx, some v => some (c idx v)
    | _, _ => none
  | _, _ => none

/-- A pseudo-command, within R83's bounds for a block whose DATA has `maxData` bytes. -/
def assemblePseudo (maxData : Nat) (name : List Char) (ops : List (List Char)) : Option (List Instr) :=
  let made : Option Pseudo :=
    if name = ['D', 'E', 'L', 'I', 'V', 'E', 'R'] then (byteNumbers ops).map .deliver
    else if name = ['L', 'O', 'A', 'D', '_', 'D', 'A', 'T', 'A'] then (byteNumbers ops).map .loadData
    else if name = ['H', 'D', 'R'] then
      match ops with
      | [p, q, r] =>
        match wordNumber p, wordNumber q, byteNumber r with
        | some a, some b, some c => some (.hdr a b c)
        | _, _, _ => none
      | _ => none
    else none
  match made with
  | some p => if pseudoWellFormed maxData p then some (expandPseudo p) else none
  | none => none

/-- Drop the spaces in front. -/
def dropFront : List Char → List Char
  | ' ' :: cs => dropFront cs
  | cs => cs

/-- A line without its comment (R81) and the spaces around it. -/
def lineBody (cs : List Char) : List Char :=
  (dropFront (dropFront (cs.takeWhile (· != ';'))).reverse).reverse

/-- The commands a line stands for: "one command per line: the mnemonic of rule R76 in capitals, then the operands" (R81);
none of them for a line with no command; `none` for an assembly error. -/
def assembleLine (maxData : Nat) (line : String) : Option (List CmdWord) :=
  let body := lineBody line.toList
  if body = [] then some []
  else
    let name := body.takeWhile (· != ' ')
    let rest := body.drop (name.length + 1)
    match (if rest = [] then some [] else operands rest) with
    | none => none
    | some ops =>
      match asmTable.find? (fun r => r.1.toList == name) with
      | some r => (assembleForm r.2 ops).map fun i => [encode i]
      | none => (assemblePseudo maxData name ops).map fun is => is.map encode

end Sys2Proof.Machine
end

