-- ==== Sys2Proof/Safety.lean ====
section
/-! DEFINITION. What counts as a good state and a good run, and the spec's tables in the words its statements use: the
invariant, the errors of 60_exceptions.md R153 and R154, the transitions of 44_connection_fsm.md R141, what sends (R32), and
the packets the builders make. -/

namespace Sys2Proof.Machine

/-- "a run ends well when FAULT = 0" (R181). -/
def State.endsWell (s : State) : Prop := s.fault = false

/-- The invariant of the machine: PKT and DATA in canonical form with every listed address inside its buffer (R22, R24,
R53), PLEN <= MAX_PKT (R23), DLEN <= MAX_DATA (R25), and ERR is NONE exactly while FAULT is 0 (R33, R152). -/
structure State.Inv (s : State) : Prop where
  pktWf     : Memory.wf s.pkt
  pktInside : ∀ c ∈ s.pkt, c.1 < maxPktOf s
  dataWf    : Memory.wf s.data
  dataInside : ∀ c ∈ s.data, c.1 < maxDataOf s
  plenFits  : s.plen.toNat ≤ maxPktOf s
  dlenFits  : s.dlen.toNat ≤ maxDataOf s
  errIff    : s.fault = false ↔ s.err = .noError

/-! ### Running a word of each format (R71, R77) -/

/-- A word with this opcode runs `i` when cmd[23:0] = 0, and otherwise raises ILLEGAL_COMMAND and nothing else. -/
def RunsAsN (op : Byte) (i : Instr) : Prop :=
  ∀ (s : State) (w : CmdWord), w.extractLsb' 24 8 = op →
    (w.extractLsb' 0 24 = 0#24 → runWord w s = exec i s) ∧
    (w.extractLsb' 0 24 ≠ 0#24 → s.fault = false → runWord w s = .next { s with fault := true, err := .illegalCommand })

/-- As `RunsAsN`: imm16 = cmd[15:0], and cmd[23:16] must be 0. -/
def RunsAsI (op : Byte) (c : Word → Instr) : Prop :=
  ∀ (s : State) (w : CmdWord), w.extractLsb' 24 8 = op →
    (w.extractLsb' 16 8 = 0#8 → runWord w s = exec (c (w.extractLsb' 0 16)) s) ∧
    (w.extractLsb' 16 8 ≠ 0#8 → s.fault = false → runWord w s = .next { s with fault := true, err := .illegalCommand })

/-- As `RunsAsN`: mask8 = cmd[7:0], and cmd[23:8] must be 0. -/
def RunsAsM (op : Byte) (c : Byte → Instr) : Prop :=
  ∀ (s : State) (w : CmdWord), w.extractLsb' 24 8 = op →
    (w.extractLsb' 8 16 = 0#16 → runWord w s = exec (c (w.extractLsb' 0 8)) s) ∧
    (w.extractLsb' 8 16 ≠ 0#16 → s.fault = false → runWord w s = .next { s with fault := true, err := .illegalCommand })

/-- idx16 = cmd[23:8], val8 = cmd[7:0], and no must-be-zero bit. -/
def RunsAsB (op : Byte) (c : Word → Byte → Instr) : Prop :=
  ∀ (s : State) (w : CmdWord), w.extractLsb' 24 8 = op → runWord w s = exec (c (w.extractLsb' 8 16) (w.extractLsb' 0 8)) s

/-- As `RunsAsN`: idx16 = cmd[23:8], and cmd[7:0] must be 0. -/
def RunsAsX (op : Byte) (c : Word → Instr) : Prop :=
  ∀ (s : State) (w : CmdWord), w.extractLsb' 24 8 = op →
    (w.extractLsb' 0 8 = 0#8 → runWord w s = exec (c (w.extractLsb' 8 16)) s) ∧
    (w.extractLsb' 0 8 ≠ 0#8 → s.fault = false → runWord w s = .next { s with fault := true, err := .illegalCommand })

/-! ### Errors (R153, R154) -/

/-- The states an FSM command accepts (R141); `none` for a command that has no state check. -/
def acceptedStates : Instr → Option (List CState)
  | .cConnect => some [.idle]
  | .cRecv => some [.cSynSent, .cEchoWait, .cClosing]
  | .cSend => some [.cEstablished]
  | .cClose => some [.cEstablished]
  | .sRecv => some [.idle, .sSynRcvd, .sEstablished]
  | .nop | .encSeq _ | .decSeq | .encAck _ | .decAck | .setFlag _ | .clrFlag _ | .hasFlag _ | .clrHdr
  | .decFlags | .assemble | .split | .wrPkt _ _ | .rdPkt _ | .wrData _ _ | .rdData _ | .setPlen _ | .getPlen
  | .setDlen _ | .getDlen | .buildConnReq | .buildDiscReq | .buildData | .buildClientAck | .buildServerAck
  | .buildCloseAck | .vConnReq | .vClientAck | .vServerAck | .vDiscReq | .captureOrig | .abort => none

/-- The operand is out of range (R153 step 4). -/
def operandOutOfRange (i : Instr) (s : State) : Bool :=
  match i with
  | .wrPkt idx _ => decide (maxPktOf s ≤ idx.toNat)
  | .rdPkt idx => decide (maxPktOf s ≤ idx.toNat)
  | .wrData idx _ => decide (maxDataOf s ≤ idx.toNat)
  | .rdData idx => decide (maxDataOf s ≤ idx.toNat)
  | .setPlen imm => decide (maxPktOf s < imm.toNat)
  | .setDlen imm => decide (maxDataOf s < imm.toNat)
  | .nop | .encSeq _ | .decSeq | .encAck _ | .decAck | .setFlag _ | .clrFlag _ | .hasFlag _ | .clrHdr
  | .decFlags | .assemble | .split | .getPlen | .getDlen | .buildConnReq | .buildDiscReq | .buildData
  | .buildClientAck | .buildServerAck | .buildCloseAck | .vConnReq | .vClientAck | .vServerAck | .vDiscReq
  | .captureOrig | .cConnect | .cRecv | .cSend | .cClose | .sRecv | .abort => false

/-- The command reads a header from PKT in the state it is in (R111, R154). -/
def readsHeader (i : Instr) (s : State) : Bool :=
  match i with
  | .split | .buildClientAck | .buildServerAck | .buildCloseAck | .cRecv => true
  | .sRecv => decide (s.cstate ≠ .sSynRcvd)
  | .nop | .encSeq _ | .decSeq | .encAck _ | .decAck | .setFlag _ | .clrFlag _ | .hasFlag _ | .clrHdr
  | .decFlags | .assemble | .wrPkt _ _ | .rdPkt _ | .wrData _ _ | .rdData _ | .setPlen _ | .getPlen | .setDlen _
  | .getDlen | .buildConnReq | .buildDiscReq | .buildData | .vConnReq | .vClientAck | .vServerAck | .vDiscReq
  | .captureOrig | .cConnect | .cSend | .cClose | .abort => false

/-- The error a legal command raises in a block that is not halted: steps 3 to 5 of R153, in that order. -/
def expectedError (i : Instr) (s : State) : Option Err :=
  if (acceptedStates i).any (fun l => decide (s.cstate ∉ l)) then some .illegalState
  else if operandOutOfRange i s then some .indexRange
  else if readsHeader i s && decide (s.plen.toNat < 5) then some .malformedHeader
  else none

/-! ### The connection (R32, R140, R141) -/

/-- The command asks for a send, in the state it is in (R32; the TX column of R141). -/
def asksForSend (i : Instr) (c : CState) : Bool :=
  match i with
  | .cConnect | .cSend | .cClose => true
  | .cRecv => decide (c = .cSynSent ∨ c = .cClosing)
  | .sRecv => decide (c = .idle ∨ c = .sEstablished)
  | .nop | .encSeq _ | .decSeq | .encAck _ | .decAck | .setFlag _ | .clrFlag _ | .hasFlag _ | .clrHdr
  | .decFlags | .assemble | .split | .wrPkt _ _ | .rdPkt _ | .wrData _ _ | .rdData _ | .setPlen _ | .getPlen
  | .setDlen _ | .getDlen | .buildConnReq | .buildDiscReq | .buildData | .buildClientAck | .buildServerAck
  | .buildCloseAck | .vConnReq | .vClientAck | .vServerAck | .vDiscReq | .captureOrig | .abort => false

/-- The next state of R141, for a command that completes in state `c`; `fin` is the FIN bit of the header in PKT. -/
def nextCState (i : Instr) (c : CState) (fin : Bool) : CState :=
  match i, c with
  | .cConnect, .idle => .cSynSent
  | .cRecv, .cSynSent => .cEstablished
  | .cSend, .cEstablished => .cEchoWait
  | .cRecv, .cEchoWait => .cEstablished
  | .cClose, .cEstablished => .cClosing
  | .cRecv, .cClosing => .closed
  | .sRecv, .idle => .sSynRcvd
  | .sRecv, .sSynRcvd => .sEstablished
  | .sRecv, .sEstablished => if fin then .closed else .sEstablished
  | .abort, _ => .closed
  | _, c => c

/-- A client's states (R29). -/
def clientState (c : CState) : Bool := decide (c ∈ [CState.cSynSent, .cEstablished, .cEchoWait, .cClosing])

/-- A server's states (R29). -/
def serverState (c : CState) : Bool := decide (c ∈ [CState.sSynRcvd, .sEstablished])

/-- The commands that may write RES (R27): for C_RECV, in C_ECHO_WAIT. -/
def writesRes (i : Instr) (c : CState) : Bool :=
  match i with
  | .decSeq | .decAck | .decFlags | .hasFlag _ | .rdPkt _ | .rdData _ | .getPlen | .getDlen | .vConnReq
  | .vClientAck | .vServerAck | .vDiscReq => true
  | .cRecv => decide (c = .cEchoWait)
  | .nop | .encSeq _ | .encAck _ | .setFlag _ | .clrFlag _ | .clrHdr | .assemble | .split | .wrPkt _ _
  | .wrData _ _ | .setPlen _ | .setDlen _ | .buildConnReq | .buildDiscReq | .buildData | .buildClientAck
  | .buildServerAck | .buildCloseAck | .captureOrig | .cConnect | .cSend | .cClose | .sRecv | .abort => false

/-- The commands that may write ORIG_SEQ (R28). -/
def writesOrigSeq : Instr → Bool
  | .buildConnReq | .cConnect | .captureOrig => true
  | .nop | .encSeq _ | .decSeq | .encAck _ | .decAck | .setFlag _ | .clrFlag _ | .hasFlag _ | .clrHdr
  | .decFlags | .assemble | .split | .wrPkt _ _ | .rdPkt _ | .wrData _ _ | .rdData _ | .setPlen _ | .getPlen
  | .setDlen _ | .getDlen | .buildDiscReq | .buildData | .buildClientAck | .buildServerAck | .buildCloseAck
  | .vConnReq | .vClientAck | .vServerAck | .vDiscReq | .cRecv | .cSend | .cClose | .sRecv | .abort => false

/-- The commands that may write PKT or PLEN (R176). -/
def writesPayload (i : Instr) (c : CState) (fin : Bool) : Bool :=
  match i with
  | .wrPkt _ _ | .setPlen _ | .assemble | .buildConnReq | .buildDiscReq | .buildData | .buildClientAck
  | .buildServerAck | .buildCloseAck | .cConnect | .cSend | .cClose => true
  | .cRecv => decide (c = .cSynSent ∨ c = .cClosing)
  | .sRecv => decide (c = .idle ∨ (c = .sEstablished ∧ fin = true))
  | .nop | .encSeq _ | .decSeq | .encAck _ | .decAck | .setFlag _ | .clrFlag _ | .hasFlag _ | .clrHdr
  | .decFlags | .split | .rdPkt _ | .wrData _ _ | .rdData _ | .getPlen | .setDlen _ | .getDlen | .vConnReq
  | .vClientAck | .vServerAck | .vDiscReq | .captureOrig | .abort => false

/-- The commands that may write DATA or DLEN (R20, R24, R25): for C_RECV, in C_ECHO_WAIT. -/
def writesDataSegment (i : Instr) (c : CState) : Bool :=
  match i with
  | .wrData _ _ | .setDlen _ | .split => true
  | .cRecv => decide (c = .cEchoWait)
  | .nop | .encSeq _ | .decSeq | .encAck _ | .decAck | .setFlag _ | .clrFlag _ | .hasFlag _ | .clrHdr
  | .decFlags | .assemble | .wrPkt _ _ | .rdPkt _ | .rdData _ | .setPlen _ | .getPlen | .getDlen | .buildConnReq
  | .buildDiscReq | .buildData | .buildClientAck | .buildServerAck | .buildCloseAck | .vConnReq | .vClientAck
  | .vServerAck | .vDiscReq | .captureOrig | .cConnect | .cSend | .cClose | .sRecv | .abort => false

/-- The commands that may sample RND (R26). -/
def readsRnd : Instr → Bool
  | .buildConnReq | .buildServerAck | .buildCloseAck | .cConnect | .sRecv => true
  | .nop | .encSeq _ | .decSeq | .encAck _ | .decAck | .setFlag _ | .clrFlag _ | .hasFlag _ | .clrHdr
  | .decFlags | .assemble | .split | .wrPkt _ _ | .rdPkt _ | .wrData _ _ | .rdData _ | .setPlen _ | .getPlen
  | .setDlen _ | .getDlen | .buildDiscReq | .buildData | .buildClientAck | .vConnReq | .vClientAck | .vServerAck
  | .vDiscReq | .captureOrig | .cRecv | .cSend | .cClose | .abort => false

/-- The FSM commands (R76, R140). -/
def fsmCommand : Instr → Bool
  | .cConnect | .cRecv | .cSend | .cClose | .sRecv | .abort => true
  | .nop | .encSeq _ | .decSeq | .encAck _ | .decAck | .setFlag _ | .clrFlag _ | .hasFlag _ | .clrHdr
  | .decFlags | .assemble | .split | .wrPkt _ _ | .rdPkt _ | .wrData _ _ | .rdData _ | .setPlen _ | .getPlen
  | .setDlen _ | .getDlen | .buildConnReq | .buildDiscReq | .buildData | .buildClientAck | .buildServerAck
  | .buildCloseAck | .vConnReq | .vClientAck | .vServerAck | .vDiscReq | .captureOrig => false

/-! ### Packets -/

/-- The header that stands in PKT[0..4] (R50, R111). -/
def headerInPkt (s : State) : Header := ⟨readPkt s 0, readPkt s 1, readPkt s 2, readPkt s 3, readPkt s 4⟩

/-- The FIN bit of the header in PKT (R34). -/
def finInPkt (s : State) : Bool := (readPkt s 4).getLsbD 3

/-- Every byte of PKT at address `n` and above reads as before. -/
def PktKeptFrom (n : Nat) (s t : State) : Prop := ∀ a, n ≤ a → readPkt t a = readPkt s a

/-- Every byte of DATA at address `n` and above reads as before. -/
def DataKeptFrom (n : Nat) (s t : State) : Prop := ∀ a, n ≤ a → readData t a = readData s a

/-- What BUILD_CONN_REQ does to HDR, PKT, PLEN and ORIG_SEQ (R120): s = RND[14:0] zero-extended. -/
def ConnReqMade (s t : State) : Prop :=
  t.hdr = ⟨s.rnd.extractLsb' 0 8, 0#1 ++ s.rnd.extractLsb' 8 7, 0#8, 0#8, 0x80#8⟩ ∧
  headerInPkt t = t.hdr ∧ PktKeptFrom 5 s t ∧ t.plen = 5#16 ∧ t.origSeq = 0#1 ++ s.rnd.extractLsb' 0 15

/-- What BUILD_DISC_REQ does to HDR, PKT and PLEN (R121). -/
def DiscReqMade (s t : State) : Prop :=
  t.hdr = ⟨0#8, 0#8, 0#8, 0#8, 0x08#8⟩ ∧ headerInPkt t = t.hdr ∧ PktKeptFrom 5 s t ∧ t.plen = 5#16

/-- The payload becomes the header `h` and the data segment of `s` (R100). -/
def Assembled (h : Header) (s t : State) : Prop :=
  headerInPkt t = h ∧ (∀ k, k < s.dlen.toNat → readPkt t (5 + k) = readData s k) ∧
  PktKeptFrom (5 + s.dlen.toNat) s t ∧ t.plen.toNat = 5 + s.dlen.toNat

/-- What BUILD_DATA does to HDR, PKT and PLEN (R122). -/
def DataPacketMade (s t : State) : Prop :=
  t.hdr = ⟨0#8, 0#8, 0#8, 0#8, 0x10#8⟩ ∧ Assembled t.hdr s t

/-- What SPLIT does to HDR, DATA and DLEN (R101). -/
def SplitMade (s t : State) : Prop :=
  t.hdr = headerInPkt s ∧ t.dlen.toNat = s.plen.toNat - 5 ∧
  (∀ k, k < s.plen.toNat - 5 → readData t k = readPkt s (5 + k)) ∧ DataKeptFrom (s.plen.toNat - 5) s t

/-- What the client acknowledgement does to HDR and PKT (R117, R123). -/
def ClientAckMade (s t : State) : Prop :=
  t.hdr.flags = ((readPkt s 4 &&& ~~~0x80#8) ||| 0x20#8) ∧
  t.hdr.ackHi ++ t.hdr.ackLo = (readPkt s 1 ++ readPkt s 0) + 1#16 ∧
  t.hdr.seqHi ++ t.hdr.seqLo = 0x0000#16 ∧ headerInPkt t = t.hdr ∧ PktKeptFrom 5 s t

/-- What the server acknowledgement does to HDR and PKT (R118, R124). -/
def ServerAckMade (s t : State) : Prop :=
  t.hdr.flags = (readPkt s 4 ||| 0x20#8) ∧
  t.hdr.ackHi ++ t.hdr.ackLo = (readPkt s 3 ++ readPkt s 2) + 1#16 ∧
  t.hdr.seqHi ++ t.hdr.seqLo = s.rnd ∧ headerInPkt t = t.hdr ∧ PktKeptFrom 5 s t

/-- What the server close acknowledgement does to HDR and PKT (R119, R125). -/
def CloseAckMade (s t : State) : Prop :=
  t.hdr.flags = (readPkt s 4 ||| 0x08#8) ∧
  t.hdr.ackHi ++ t.hdr.ackLo = (readPkt s 3 ++ readPkt s 2) + 1#16 ∧
  t.hdr.seqHi ++ t.hdr.seqLo = s.rnd ∧ headerInPkt t = t.hdr ∧ PktKeptFrom 5 s t

end Sys2Proof.Machine
end

