-- ==== Sys2Proof/Certificates/Slice0/Obligations.lean ====
section
/-! DEFINITION. The statements about the model, from the spec's numbered rules. Each is proved elsewhere. "Live" below means
FAULT = 0. A frame is written as an equation: `t = { s with … }` says that every field not named is unchanged. -/

open Sys2Proof Sys2Proof.Machine

/-! ### Encoding (30_encoding.md) -/

/-- Words written out by hand from R71 and R76; the first five are R81's own examples. -/
def Obligations.SpecWordsDecode : Prop :=
  decode 0x10001234#32 = .ok (.encSeq 0x1234#16) ∧ decode 0x140000A0#32 = .ok (.setFlag 0xA0#8) ∧
  decode 0x220004A0#32 = .ok (.wrPkt 4#16 0xA0#8) ∧ decode 0x23000400#32 = .ok (.rdPkt 4#16) ∧
  decode 0x21000000#32 = .ok .split ∧ decode 0x00000000#32 = .ok .nop ∧ decode 0x34000000#32 = .ok .buildServerAck ∧
  decode 0x42000000#32 = .ok .vServerAck ∧ decode 0x58000000#32 = .ok .sRecv ∧ decode 0x5F000000#32 = .ok .abort

/-- Decoding the encoding of any command gives that command, with every operand at every value. -/
def Obligations.DecodeOfEncodeIsTheCommand : Prop := ∀ i : Instr, decode (encode i) = .ok i

/-- A word that decodes is the encoding of what it decodes to: each legal word has one meaning. -/
def Obligations.EncodeOfDecodeIsTheWord : Prop := ∀ (w : CmdWord) (i : Instr), decode w = .ok i → encode i = w

/-- R76 to R78: the decoder accepts exactly the words whose opcode is in the map and whose must-be-zero bits are 0. -/
def Obligations.DecoderAcceptsExactlyTheOpcodeMap : Prop :=
  ∀ w : CmdWord, (∃ i, decode w = .ok i) ↔ legalWord w = true

/-- R77, R78: any other word raises ILLEGAL_COMMAND and has no other effect. -/
def Obligations.IllegalWordRaisesIllegalCommand : Prop :=
  ∀ (w : CmdWord) (s : State), legalWord w = false → s.fault = false →
    runWord w s = .next { s with fault := true, err := .illegalCommand }

/-! ### Steps, reset, the invariant (00, 10, 60, 70) -/

/-- R1, R10: the step runs the word presented, whether it decodes or not, with RND as the host drives it and the word taken
from what is pending; and when the word decodes to `i`, that is `exec i`. That the host's inputs stand in State is the model's
choice (log 2). -/
def Obligations.StepRunsTheDecodedCommand : Prop :=
  ∀ (s : State) (w : CmdWord) (r : Word) (rest : List HostInput), s.pending = ⟨false, w, r⟩ :: rest →
    step s = runWord w { s with rnd := r, pending := rest } ∧
    ∀ i : Instr, decode w = .ok i → step s = exec i { s with rnd := r, pending := rest }

/-- R167: with nothing presented the block keeps all state. (What is presented stands in State, log 2.) -/
def Obligations.IdleBlockKeepsAllState : Prop := ∀ s : State, s.pending = [] → step s = .next s

/-- R168, R170: the reset input wins over the word presented with it, in every state, halted ones too; every register goes
to its value of R38 and the parameter stays. (What PKT and DATA then hold is unspecified, so nothing is said of it; the inputs stand in State, log 2.) -/
def Obligations.ResetInputWins : Prop :=
  ∀ (s : State) (w : CmdWord) (r : Word) (rest : List HostInput), s.pending = ⟨true, w, r⟩ :: rest →
    ∃ t, step s = .next t ∧ t.hdr = ⟨0#8, 0#8, 0#8, 0#8, 0#8⟩ ∧ t.plen = 0#16 ∧ t.dlen = 0#16 ∧ t.res = 0#16 ∧
      t.origSeq = 0#16 ∧ t.cstate = .idle ∧ t.txv = false ∧ t.fault = false ∧ t.err = .noError ∧ t.maxData = s.maxData ∧
      t.pending = rest

/-- R38: the state after reset. -/
def Obligations.ResetStateValues : Prop :=
  State.reset.hdr = ⟨0#8, 0#8, 0#8, 0#8, 0#8⟩ ∧ State.reset.plen = 0#16 ∧ State.reset.dlen = 0#16 ∧
  State.reset.res = 0x0000#16 ∧ State.reset.origSeq = 0x0000#16 ∧ State.reset.cstate = .idle ∧ State.reset.txv = false ∧
  State.reset.fault = false ∧ State.reset.err = .noError ∧ statusPort State.reset = 0x0000#16

/-- The model's choice (logs 4 and 5): each reset takes the next draw, and until a command writes a byte of PKT or DATA it
reads as the free value of that draw, whatever that value is. -/
def Obligations.ResetDrawsTheBuffersAfresh : Prop :=
  ∀ (s : State) (w : CmdWord) (r : Word) (rest : List HostInput), s.pending = ⟨true, w, r⟩ :: rest →
    ∃ t, step s = .next t ∧ t.draw = s.draw + 1 ∧ (∀ a, readPkt t a = Config.pktAtReset (s.draw + 1) a) ∧
      (∀ a, readData t a = Config.dataAtReset (s.draw + 1) a)

/-- The invariant holds right after a reset, for every value of the parameter. -/
def Obligations.InvariantAtReset : Prop :=
  State.reset.Inv ∧ ∀ (m : Fin 65531) (d : Nat) (r : Word) (p : List HostInput), (State.resetWith m d r p).Inv

/-- R22 to R25, R33: every step keeps the invariant, from every state that meets it. -/
def Obligations.StepKeepsInvariant : Prop := ∀ s t : State, s.Inv → step s = .next t → t.Inv

/-- No step stops: from every state that meets the invariant, whatever the host presents, there is a next state. (Log 8 names the stops that the invariant rules out.) -/
def Obligations.StepAlwaysCompletes : Prop := ∀ s : State, s.Inv → ∃ t, step s = .next t

/-- R155, R157: a halted block ignores every word, legal or not, and consumes it; FAULT and ERR stay until a reset. -/
def Obligations.HaltedBlockIgnoresEveryCommand : Prop :=
  (∀ (w : CmdWord) (s : State), s.fault = true → runWord w s = .next s) ∧
  (∀ (s : State) (w : CmdWord) (r : Word) (rest : List HostInput), s.fault = true →
    s.pending = ⟨false, w, r⟩ :: rest → step s = .next { s with rnd := r, pending := rest }) ∧
  (∀ s t : State, s.fault = true → step s = .next t → t.fault = true ∧ t.err = s.err ∨
    ∃ inp rest, s.pending = inp :: rest ∧ inp.reset = true)

/-- R153, R154: what decides the outcome of any word, in the order of the checks; a legal command completes exactly when no
check fails. -/
def Obligations.ErrorsFollowTheCheckOrder : Prop :=
  ∀ (w : CmdWord) (s : State), s.Inv →
    (s.fault = true → runWord w s = .next s) ∧
    (s.fault = false → legalWord w = false → runWord w s = .next { s with fault := true, err := .illegalCommand }) ∧
    (s.fault = false → ∀ i, decode w = .ok i →
      (∀ e, expectedError i s = some e → runWord w s = .next { s with fault := true, err := e }) ∧
      (expectedError i s = none → ∃ t, runWord w s = .next t ∧ t.fault = false ∧ t.err = .noError))

/-- R152, R156: the state after a faulting word is the state before it, plus FAULT and ERR. -/
def Obligations.FaultsArePrecise : Prop :=
  ∀ (w : CmdWord) (s t : State), s.fault = false → runWord w s = .next t → t.fault = true →
    ∃ e, e ≠ .noError ∧ t = { s with fault := true, err := e }

/-! ### What commands as a whole do (10_state.md, 44_connection_fsm.md, 70_reset_and_hazards.md) -/

/-- R32: TXV is 1 exactly when the last command completed asked for a send; a faulting command leaves it. -/
def Obligations.TxvExactlyWhenASendIsAsked : Prop :=
  ∀ (i : Instr) (s t : State), s.fault = false → exec i s = .next t →
    (t.fault = false → t.txv = asksForSend i s.cstate) ∧ (t.fault = true → t.txv = s.txv)

/-- R140, R141: the transitions are exactly those of the table; a pair that is not in it raises ILLEGAL_STATE and changes
nothing; a command that faults leaves CSTATE. -/
def Obligations.ConnectionFollowsTheTable : Prop :=
  ∀ (i : Instr) (s : State), s.fault = false →
    (∀ t, exec i s = .next t → t.fault = false → t.cstate = nextCState i s.cstate (finInPkt s)) ∧
    (∀ t, exec i s = .next t → t.fault = true → t.cstate = s.cstate) ∧
    (∀ l, acceptedStates i = some l → s.cstate ∉ l → exec i s = .next { s with fault := true, err := .illegalState })

/-- R140, R149: CLOSED is terminal; a client never enters a server state and the reverse. -/
def Obligations.ClosedIsTerminalAndRolesAreFixed : Prop :=
  ∀ (w : CmdWord) (s t : State), runWord w s = .next t →
    (s.cstate = .closed → t.cstate = .closed) ∧
    (clientState s.cstate = true → clientState t.cstate = true ∨ t.cstate = .closed) ∧
    (serverState s.cstate = true → serverState t.cstate = true ∨ t.cstate = .closed)

/-- R27, R28: only the commands named there change RES and ORIG_SEQ. -/
def Obligations.ResAndOrigSeqChangeOnlyWhereNamed : Prop :=
  ∀ (i : Instr) (s t : State), exec i s = .next t →
    (writesRes i s.cstate = false → t.res = s.res) ∧ (writesOrigSeq i = false → t.origSeq = s.origSeq)

/-- R176, R20: commands that are not in R176's list leave PKT and PLEN, and those that are no writers of DATA leave DATA
and DLEN. -/
def Obligations.BuffersChangeOnlyWhereNamed : Prop :=
  ∀ (i : Instr) (s t : State), exec i s = .next t →
    (writesPayload i s.cstate (finInPkt s) = false → t.plen = s.plen ∧ ∀ a, readPkt t a = readPkt s a) ∧
    (writesDataSegment i s.cstate = false → t.dlen = s.dlen ∧ ∀ a, readData t a = readData s a)

/-- R5, R20: no command writes the parameter, the draw, or the inputs, which the model holds as fields (logs 1, 2 and 5). -/
def Obligations.CommandsKeepParameterAndInputs : Prop :=
  ∀ (i : Instr) (s t : State), exec i s = .next t →
    t.maxData = s.maxData ∧ t.draw = s.draw ∧ t.rnd = s.rnd ∧ t.pending = s.pending

/-- R26: a command that is not named there does not depend on RND. -/
def Obligations.OnlyNamedCommandsSampleRnd : Prop :=
  ∀ (i : Instr) (s : State) (r : Word), readsRnd i = false →
    exec i (driveRnd s r) = andThen (exec i s) fun t => .next (driveRnd t r)

/-- R136: no FSM command reads RES: with any other value in RES before it, it answers the same state, and RES holds what the
command writes there, or that other value where it writes nothing. -/
def Obligations.FsmCommandsDoNotReadRes : Prop :=
  ∀ (i : Instr) (s t : State) (v : Word), fsmCommand i = true → exec i s = .next t →
    exec i { s with res := v } = .next { t with res := if t.fault = false ∧ writesRes i s.cstate = true then t.res else v }

/-- R29, R30, R33, R154: STATUS shows the CSTATE code in bits 2:0, TXV in bit 3, FAULT in bit 4, the ERR code in bits 7:5, and
0 in bits 15:8, each code as its number in the spec's tables; and the "connected" column of R29. -/
def Obligations.StatusWordIsComposed : Prop :=
  ∀ s : State,
    ((s.cstate = .idle → (statusPort s).extractLsb' 0 3 = 0#3 ∧ connected s = false) ∧
     (s.cstate = .cSynSent → (statusPort s).extractLsb' 0 3 = 1#3 ∧ connected s = false) ∧
     (s.cstate = .cEstablished → (statusPort s).extractLsb' 0 3 = 2#3 ∧ connected s = true) ∧
     (s.cstate = .cEchoWait → (statusPort s).extractLsb' 0 3 = 3#3 ∧ connected s = true) ∧
     (s.cstate = .cClosing → (statusPort s).extractLsb' 0 3 = 4#3 ∧ connected s = true) ∧
     (s.cstate = .sSynRcvd → (statusPort s).extractLsb' 0 3 = 5#3 ∧ connected s = false) ∧
     (s.cstate = .sEstablished → (statusPort s).extractLsb' 0 3 = 6#3 ∧ connected s = true) ∧
     (s.cstate = .closed → (statusPort s).extractLsb' 0 3 = 7#3 ∧ connected s = false)) ∧
    (statusPort s).getLsbD 3 = s.txv ∧ (statusPort s).getLsbD 4 = s.fault ∧
    ((s.err = .noError → (statusPort s).extractLsb' 5 3 = 0#3) ∧
     (s.err = .illegalCommand → (statusPort s).extractLsb' 5 3 = 1#3) ∧
     (s.err = .malformedHeader → (statusPort s).extractLsb' 5 3 = 2#3) ∧
     (s.err = .indexRange → (statusPort s).extractLsb' 5 3 = 3#3) ∧
     (s.err = .illegalState → (statusPort s).extractLsb' 5 3 = 4#3)) ∧
    (statusPort s).extractLsb' 8 8 = 0#8

/-! ### System and header codec commands (45_system.md, 40_header_codec.md) -/

/-- R150. -/
def Obligations.NopClearsOnlyTxv : Prop :=
  RunsAsN 0x00#8 .nop ∧ ∀ s : State, s.fault = false → exec .nop s = .next { s with txv := false }

/-- R90, R92. -/
def Obligations.EncodeFieldsLittleEndian : Prop :=
  RunsAsI 0x10#8 .encSeq ∧ RunsAsI 0x12#8 .encAck ∧
  ∀ (s : State) (v : Word), s.fault = false →
    exec (.encSeq v) s =
      .next { s with txv := false, hdr := { s.hdr with seqLo := v.extractLsb' 0 8, seqHi := v.extractLsb' 8 8 } } ∧
    exec (.encAck v) s =
      .next { s with txv := false, hdr := { s.hdr with ackLo := v.extractLsb' 0 8, ackHi := v.extractLsb' 8 8 } }

/-- R91, R93, R98. -/
def Obligations.DecodeFieldsUnsigned : Prop :=
  RunsAsN 0x11#8 .decSeq ∧ RunsAsN 0x13#8 .decAck ∧ RunsAsN 0x18#8 .decFlags ∧
  ∀ s : State, s.fault = false →
    exec .decSeq s = .next { s with txv := false, res := s.hdr.seqHi ++ s.hdr.seqLo } ∧
    exec .decAck s = .next { s with txv := false, res := s.hdr.ackHi ++ s.hdr.ackLo } ∧
    exec .decFlags s = .next { s with txv := false, res := 0x00#8 ++ s.hdr.flags }

/-- R94, R95: bit by bit of the flags byte. -/
def Obligations.SetAndClearFlagBits : Prop :=
  RunsAsM 0x14#8 .setFlag ∧ RunsAsM 0x15#8 .clrFlag ∧
  ∀ (s : State) (mask : Byte), s.fault = false →
    (∃ t, exec (.setFlag mask) s = .next t ∧ t = { s with txv := false, hdr := { s.hdr with flags := t.hdr.flags } } ∧
      ∀ k, t.hdr.flags.getLsbD k = (s.hdr.flags.getLsbD k || mask.getLsbD k)) ∧
    (∃ t, exec (.clrFlag mask) s = .next t ∧ t = { s with txv := false, hdr := { s.hdr with flags := t.hdr.flags } } ∧
      ∀ k, t.hdr.flags.getLsbD k = (s.hdr.flags.getLsbD k && !mask.getLsbD k))

/-- R96: true exactly when some masked bit is set. -/
def Obligations.HasFlagTestsAnyBit : Prop :=
  RunsAsM 0x16#8 .hasFlag ∧
  ∀ (s : State) (mask : Byte), s.fault = false →
    ((∃ k, s.hdr.flags.getLsbD k = true ∧ mask.getLsbD k = true) →
      exec (.hasFlag mask) s = .next { s with txv := false, res := 0x0001#16 }) ∧
    ((∀ k, ¬ (s.hdr.flags.getLsbD k = true ∧ mask.getLsbD k = true)) →
      exec (.hasFlag mask) s = .next { s with txv := false, res := 0x0000#16 })

/-- R97. -/
def Obligations.ClearHeaderMakesItEmpty : Prop :=
  RunsAsN 0x17#8 .clrHdr ∧
  ∀ s : State, s.fault = false → exec .clrHdr s = .next { s with txv := false, hdr := ⟨0#8, 0#8, 0#8, 0#8, 0#8⟩ }

/-- R99: the codec laws. (1) Round trip; (2) field independence; (3) flag independence; (4) clear after set restores the
byte when the flag was clear, and leaves the flag clear in any case. -/
def Obligations.CodecLaws : Prop :=
  (∀ (s : State) (seq ack : Word) (flags : Byte), s.fault = false →
    ∃ t, runPseudo (.hdr seq ack flags) s = .next t ∧
      (∃ u, exec .decSeq t = .next u ∧ u.res = seq) ∧ (∃ u, exec .decAck t = .next u ∧ u.res = ack) ∧
      (∃ u, exec .decFlags t = .next u ∧ u.res = 0#8 ++ flags)) ∧
  (∀ (s t : State) (v : Word), exec (.encSeq v) s = .next t →
    t.hdr.ackLo = s.hdr.ackLo ∧ t.hdr.ackHi = s.hdr.ackHi ∧ t.hdr.flags = s.hdr.flags) ∧
  (∀ (s t : State) (v : Word), exec (.encAck v) s = .next t →
    t.hdr.seqLo = s.hdr.seqLo ∧ t.hdr.seqHi = s.hdr.seqHi ∧ t.hdr.flags = s.hdr.flags) ∧
  (∀ (s t : State) (mask : Byte), exec (.setFlag mask) s = .next t ∨ exec (.clrFlag mask) s = .next t →
    t.hdr.seqLo = s.hdr.seqLo ∧ t.hdr.seqHi = s.hdr.seqHi ∧ t.hdr.ackLo = s.hdr.ackLo ∧ t.hdr.ackHi = s.hdr.ackHi ∧
    ∀ k, mask.getLsbD k = false → t.hdr.flags.getLsbD k = s.hdr.flags.getLsbD k) ∧
  (∀ (s t u : State) (mask : Byte), s.fault = false → exec (.setFlag mask) s = .next t → exec (.clrFlag mask) t = .next u →
    (s.hdr.flags &&& mask = 0#8 → u.hdr.flags = s.hdr.flags) ∧ u.hdr.flags &&& mask = 0#8)

/-! ### Framing and buffer commands (41_framing.md) -/

/-- R100. -/
def Obligations.AssembleConcatenatesHeaderAndData : Prop :=
  RunsAsN 0x20#8 .assemble ∧
  ∀ s : State, s.Inv → s.fault = false →
    ∃ t, exec .assemble s = .next t ∧ t = { s with txv := false, pkt := t.pkt, plen := t.plen } ∧ Assembled s.hdr s t

/-- R101. -/
def Obligations.SplitSeparatesHeaderAndData : Prop :=
  RunsAsN 0x21#8 .split ∧
  ∀ s : State, s.Inv → s.fault = false →
    (5 ≤ s.plen.toNat → ∃ t, exec .split s = .next t ∧
      t = { s with txv := false, hdr := t.hdr, data := t.data, dlen := t.dlen } ∧ SplitMade s t) ∧
    (s.plen.toNat < 5 → exec .split s = .next { s with fault := true, err := .malformedHeader })

/-- R110: the framing laws, both ways. -/
def Obligations.FramingRoundTrips : Prop :=
  ∀ s : State, s.Inv → s.fault = false →
    (∃ t u, exec .assemble s = .next t ∧ exec .split t = .next u ∧ u.hdr = s.hdr ∧ u.dlen = s.dlen ∧
      dataSegment u = dataSegment s ∧ payload u = hdrBytes s.hdr ++ dataSegment s ∧
      u.plen.toNat = 5 + s.dlen.toNat) ∧
    (5 ≤ s.plen.toNat → ∃ t u, exec .split s = .next t ∧ exec .assemble t = .next u ∧
      payload u = payload s ∧ u.plen = s.plen)

/-- R102, R104: one byte is written, in range; every other byte reads as before. -/
def Obligations.ByteWritesChangeOneByte : Prop :=
  RunsAsB 0x22#8 .wrPkt ∧ RunsAsB 0x24#8 .wrData ∧
  ∀ (s : State) (idx : Word) (v : Byte), s.fault = false →
    (idx.toNat < maxPktOf s → ∃ t, exec (.wrPkt idx v) s = .next t ∧ t = { s with txv := false, pkt := t.pkt } ∧
      readPkt t idx.toNat = v ∧ ∀ a, a ≠ idx.toNat → readPkt t a = readPkt s a) ∧
    (maxPktOf s ≤ idx.toNat → exec (.wrPkt idx v) s = .next { s with fault := true, err := .indexRange }) ∧
    (idx.toNat < maxDataOf s → ∃ t, exec (.wrData idx v) s = .next t ∧ t = { s with txv := false, data := t.data } ∧
      readData t idx.toNat = v ∧ ∀ a, a ≠ idx.toNat → readData t a = readData s a) ∧
    (maxDataOf s ≤ idx.toNat → exec (.wrData idx v) s = .next { s with fault := true, err := .indexRange })

/-- R103, R105: one byte is read into RES, zero-extended. -/
def Obligations.ByteReadsGoToRes : Prop :=
  RunsAsX 0x23#8 .rdPkt ∧ RunsAsX 0x25#8 .rdData ∧
  ∀ (s : State) (idx : Word), s.fault = false →
    (idx.toNat < maxPktOf s → exec (.rdPkt idx) s = .next { s with txv := false, res := 0#8 ++ readPkt s idx.toNat }) ∧
    (maxPktOf s ≤ idx.toNat → exec (.rdPkt idx) s = .next { s with fault := true, err := .indexRange }) ∧
    (idx.toNat < maxDataOf s → exec (.rdData idx) s = .next { s with txv := false, res := 0#8 ++ readData s idx.toNat }) ∧
    (maxDataOf s ≤ idx.toNat → exec (.rdData idx) s = .next { s with fault := true, err := .indexRange })

/-- R106 to R109. -/
def Obligations.LengthsAreSetInRangeAndRead : Prop :=
  RunsAsI 0x26#8 .setPlen ∧ RunsAsI 0x28#8 .setDlen ∧ RunsAsN 0x27#8 .getPlen ∧ RunsAsN 0x29#8 .getDlen ∧
  (∀ (s : State) (v : Word), s.fault = false →
    (v.toNat ≤ maxPktOf s → exec (.setPlen v) s = .next { s with txv := false, plen := v }) ∧
    (maxPktOf s < v.toNat → exec (.setPlen v) s = .next { s with fault := true, err := .indexRange }) ∧
    (v.toNat ≤ maxDataOf s → exec (.setDlen v) s = .next { s with txv := false, dlen := v }) ∧
    (maxDataOf s < v.toNat → exec (.setDlen v) s = .next { s with fault := true, err := .indexRange })) ∧
  ∀ s : State, s.fault = false →
    exec .getPlen s = .next { s with txv := false, res := s.plen } ∧
    exec .getDlen s = .next { s with txv := false, res := s.dlen }

/-- R65: a header written byte by byte and read as 16-bit fields, and the reverse. -/
def Obligations.MixedWidthAccessIsLittleEndian : Prop :=
  ∀ (s : State), s.Inv → s.fault = false →
    (∀ b0 b1 b2 b3 b4 : Byte, 5 ≤ s.plen.toNat →
      ∃ t, runCommands ([.wrPkt 0 b0, .wrPkt 1 b1, .wrPkt 2 b2, .wrPkt 3 b3, .wrPkt 4 b4, .split].map fun i => (i, s.rnd)) s
          = .next t ∧
        (∃ u, exec .decSeq t = .next u ∧ u.res = b1 ++ b0) ∧ (∃ u, exec .decAck t = .next u ∧ u.res = b3 ++ b2)) ∧
    (∀ v w : Word, ∃ t, runCommands ([.encSeq v, .encAck w, .assemble].map fun i => (i, s.rnd)) s = .next t ∧
      (∃ u, exec (.rdPkt 0) t = .next u ∧ u.res = 0#8 ++ v.extractLsb' 0 8) ∧
      (∃ u, exec (.rdPkt 1) t = .next u ∧ u.res = 0#8 ++ v.extractLsb' 8 8) ∧
      (∃ u, exec (.rdPkt 2) t = .next u ∧ u.res = 0#8 ++ w.extractLsb' 0 8) ∧
      (∃ u, exec (.rdPkt 3) t = .next u ∧ u.res = 0#8 ++ w.extractLsb' 8 8))

/-! ### Packet builders (42_packet_builders.md) -/

/-- R120. -/
def Obligations.ConnectionRequestIsBuilt : Prop :=
  RunsAsN 0x30#8 .buildConnReq ∧
  ∀ s : State, s.fault = false → ∃ t, exec .buildConnReq s = .next t ∧ ConnReqMade s t ∧
    t = { s with txv := false, hdr := t.hdr, pkt := t.pkt, plen := t.plen, origSeq := t.origSeq }

/-- R121. -/
def Obligations.DisconnectRequestIsBuilt : Prop :=
  RunsAsN 0x31#8 .buildDiscReq ∧
  ∀ s : State, s.fault = false → ∃ t, exec .buildDiscReq s = .next t ∧ DiscReqMade s t ∧
    t = { s with txv := false, hdr := t.hdr, pkt := t.pkt, plen := t.plen }

/-- R122. -/
def Obligations.DataPacketIsBuilt : Prop :=
  RunsAsN 0x32#8 .buildData ∧
  ∀ s : State, s.Inv → s.fault = false → ∃ t, exec .buildData s = .next t ∧ DataPacketMade s t ∧
    t = { s with txv := false, hdr := t.hdr, pkt := t.pkt, plen := t.plen }

/-- R123 (R117). -/
def Obligations.ClientAckIsBuiltInPlace : Prop :=
  RunsAsN 0x33#8 .buildClientAck ∧
  ∀ s : State, s.fault = false →
    (5 ≤ s.plen.toNat → ∃ t, exec .buildClientAck s = .next t ∧ ClientAckMade s t ∧
      t = { s with txv := false, hdr := t.hdr, pkt := t.pkt }) ∧
    (s.plen.toNat < 5 → exec .buildClientAck s = .next { s with fault := true, err := .malformedHeader })

/-- R124 (R118). -/
def Obligations.ServerAckIsBuiltInPlace : Prop :=
  RunsAsN 0x34#8 .buildServerAck ∧
  ∀ s : State, s.fault = false →
    (5 ≤ s.plen.toNat → ∃ t, exec .buildServerAck s = .next t ∧ ServerAckMade s t ∧
      t = { s with txv := false, hdr := t.hdr, pkt := t.pkt }) ∧
    (s.plen.toNat < 5 → exec .buildServerAck s = .next { s with fault := true, err := .malformedHeader })

/-- R125 (R119). -/
def Obligations.CloseAckIsBuiltInPlace : Prop :=
  RunsAsN 0x35#8 .buildCloseAck ∧
  ∀ s : State, s.fault = false →
    (5 ≤ s.plen.toNat → ∃ t, exec .buildCloseAck s = .next t ∧ CloseAckMade s t ∧
      t = { s with txv := false, hdr := t.hdr, pkt := t.pkt }) ∧
    (s.plen.toNat < 5 → exec .buildCloseAck s = .next { s with fault := true, err := .malformedHeader })

/-! ### Validators (43_validators.md) -/

/-- R131, R132, R134: each tests one bit of the flags byte. -/
def Obligations.FlagValidatorsTestOneBit : Prop :=
  RunsAsN 0x40#8 .vConnReq ∧ RunsAsN 0x41#8 .vClientAck ∧ RunsAsN 0x43#8 .vDiscReq ∧
  ∀ s : State, s.fault = false →
    exec .vConnReq s = .next { s with txv := false, res := if s.hdr.flags.getLsbD 7 then 0x0001#16 else 0x0000#16 } ∧
    exec .vClientAck s = .next { s with txv := false, res := if s.hdr.flags.getLsbD 5 then 0x0001#16 else 0x0000#16 } ∧
    exec .vDiscReq s = .next { s with txv := false, res := if s.hdr.flags.getLsbD 3 then 0x0001#16 else 0x0000#16 }

/-- R133: SYN and ACK set and ack = ORIG_SEQ + 1 mod 2^16. -/
def Obligations.ServerAckValidatorComparesModulo : Prop :=
  RunsAsN 0x42#8 .vServerAck ∧
  ∀ s : State, s.fault = false →
    (s.hdr.flags.getLsbD 7 = true ∧ s.hdr.flags.getLsbD 5 = true ∧
        (s.hdr.ackHi ++ s.hdr.ackLo).toNat = (s.origSeq.toNat + 1) % 65536 →
      exec .vServerAck s = .next { s with txv := false, res := 0x0001#16 }) ∧
    (¬ (s.hdr.flags.getLsbD 7 = true ∧ s.hdr.flags.getLsbD 5 = true ∧
        (s.hdr.ackHi ++ s.hdr.ackLo).toNat = (s.origSeq.toNat + 1) % 65536) →
      exec .vServerAck s = .next { s with txv := false, res := 0x0000#16 })

/-- R135. -/
def Obligations.CaptureOrigTakesTheSequenceNumber : Prop :=
  RunsAsN 0x44#8 .captureOrig ∧
  ∀ s : State, s.fault = false →
    exec .captureOrig s = .next { s with txv := false, origSeq := s.hdr.seqHi ++ s.hdr.seqLo }

/-! ### The connection state machine (44_connection_fsm.md) -/

/-- R142. -/
def Obligations.ClientConnects : Prop :=
  RunsAsN 0x50#8 .cConnect ∧
  ∀ s : State, s.fault = false →
    (s.cstate = .idle → ∃ t, exec .cConnect s = .next t ∧ ConnReqMade s t ∧
      t = { s with txv := true, cstate := .cSynSent, hdr := t.hdr, pkt := t.pkt, plen := t.plen, origSeq := t.origSeq }) ∧
    (s.cstate ≠ .idle → exec .cConnect s = .next { s with fault := true, err := .illegalState })

/-- R143. -/
def Obligations.ClientReceives : Prop :=
  RunsAsN 0x51#8 .cRecv ∧
  ∀ s : State, s.Inv → s.fault = false →
    (s.cstate = .cSynSent → 5 ≤ s.plen.toNat → ∃ t, exec .cRecv s = .next t ∧ ClientAckMade s t ∧
      t = { s with txv := true, cstate := .cEstablished, hdr := t.hdr, pkt := t.pkt }) ∧
    (s.cstate = .cEchoWait → 5 ≤ s.plen.toNat → ∃ t, exec .cRecv s = .next t ∧ SplitMade s t ∧
      t = { s with txv := false, cstate := .cEstablished, hdr := t.hdr, data := t.data, dlen := t.dlen, res := t.dlen }) ∧
    (s.cstate = .cClosing → 5 ≤ s.plen.toNat → ∃ t, exec .cRecv s = .next t ∧ ClientAckMade s t ∧
      t = { s with txv := true, cstate := .closed, hdr := t.hdr, pkt := t.pkt }) ∧
    (s.cstate ∉ [CState.cSynSent, .cEchoWait, .cClosing] →
      exec .cRecv s = .next { s with fault := true, err := .illegalState }) ∧
    (s.cstate ∈ [CState.cSynSent, .cEchoWait, .cClosing] → s.plen.toNat < 5 →
      exec .cRecv s = .next { s with fault := true, err := .malformedHeader })

/-- R144. -/
def Obligations.ClientSends : Prop :=
  RunsAsN 0x52#8 .cSend ∧
  ∀ s : State, s.Inv → s.fault = false →
    (s.cstate = .cEstablished → ∃ t, exec .cSend s = .next t ∧ DataPacketMade s t ∧
      t = { s with txv := true, cstate := .cEchoWait, hdr := t.hdr, pkt := t.pkt, plen := t.plen }) ∧
    (s.cstate ≠ .cEstablished → exec .cSend s = .next { s with fault := true, err := .illegalState })

/-- R145. -/
def Obligations.ClientCloses : Prop :=
  RunsAsN 0x53#8 .cClose ∧
  ∀ s : State, s.fault = false →
    (s.cstate = .cEstablished → ∃ t, exec .cClose s = .next t ∧ DiscReqMade s t ∧
      t = { s with txv := true, cstate := .cClosing, hdr := t.hdr, pkt := t.pkt, plen := t.plen }) ∧
    (s.cstate ≠ .cEstablished → exec .cClose s = .next { s with fault := true, err := .illegalState })

/-- R146. -/
def Obligations.ServerReceives : Prop :=
  RunsAsN 0x58#8 .sRecv ∧
  ∀ s : State, s.fault = false →
    (s.cstate = .idle → 5 ≤ s.plen.toNat → ∃ t, exec .sRecv s = .next t ∧ ServerAckMade s t ∧
      t = { s with txv := true, cstate := .sSynRcvd, hdr := t.hdr, pkt := t.pkt }) ∧
    (s.cstate = .sSynRcvd → exec .sRecv s = .next { s with txv := false, cstate := .sEstablished }) ∧
    (s.cstate = .sEstablished → 5 ≤ s.plen.toNat → finInPkt s = true → ∃ t, exec .sRecv s = .next t ∧ CloseAckMade s t ∧
      t = { s with txv := true, cstate := .closed, hdr := t.hdr, pkt := t.pkt }) ∧
    (s.cstate = .sEstablished → 5 ≤ s.plen.toNat → finInPkt s = false →
      exec .sRecv s = .next { s with txv := true, hdr := headerInPkt s }) ∧
    (s.cstate ∉ [CState.idle, .sSynRcvd, .sEstablished] →
      exec .sRecv s = .next { s with fault := true, err := .illegalState }) ∧
    (s.cstate ∈ [CState.idle, .sEstablished] → s.plen.toNat < 5 →
      exec .sRecv s = .next { s with fault := true, err := .malformedHeader })

/-- R147. -/
def Obligations.AbortClosesInEveryState : Prop :=
  RunsAsN 0x5F#8 .abort ∧
  ∀ s : State, s.fault = false → exec .abort s = .next { s with txv := false, cstate := .closed }

/-! ### The host and two blocks (00_scope.md R3, R10; 30_encoding.md R83; 70_reset_and_hazards.md R176, R182) -/

/-- R10, R31: a host's command list, presented word by word, runs exactly as the list of commands. That the coming inputs
stand in State is the model's choice (logs 2 and 3). -/
def Obligations.PresentedListRunsCommandByCommand : Prop :=
  ∀ (cs : List (Instr × Word)) (s : State),
    Host.Core.run Sys2Proof.core cs.length
      ({ s with pending := (cs.map fun c => (⟨false, encode c.1, c.2⟩ : HostInput)) ++ s.pending } : State) =
    runCommands cs s

/-- R83: DELIVER leaves the datagram as the payload, and changes nothing else but TXV. -/
def Obligations.DeliverPlacesTheDatagram : Prop :=
  ∀ (s : State) (bytes : List Byte), s.fault = false → bytes.length ≤ maxPktOf s →
    ∃ t, deliver bytes s = .next t ∧ payload t = bytes ∧ t.plen.toNat = bytes.length ∧ PktKeptFrom bytes.length s t ∧
      t = { s with txv := false, pkt := t.pkt, plen := t.plen }

/-- R83: LOAD_DATA leaves the bytes as the data segment, and changes nothing else but TXV. -/
def Obligations.LoadDataPlacesTheSegment : Prop :=
  ∀ (s : State) (bytes : List Byte), s.fault = false → bytes.length ≤ maxDataOf s →
    ∃ t, runPseudo (.loadData bytes) s = .next t ∧ dataSegment t = bytes ∧ t.dlen.toNat = bytes.length ∧
      DataKeptFrom bytes.length s t ∧ t = { s with txv := false, data := t.data, dlen := t.dlen }

/-- R3, R176: reading the payload out with GET_PLEN and RD_PKT gives PKT[0..PLEN-1], and disturbs only RES and TXV. -/
def Obligations.HostReadsThePayloadOut : Prop :=
  ∀ s : State, s.Inv → s.fault = false →
    ∃ u, collect s = some (payload s, u) ∧ u = { s with txv := false, res := u.res }

/-- R182: with a host that delivers every payload, the handshake establishes both sides, for every RND value, whatever the
two blocks' buffers held. The host that relays the datagrams is the model's choice (log 11). -/
def Obligations.HandshakeEstablishesBothSides : Prop :=
  ∀ (c s : State) (r1 r2 r3 r4 : Word), c.Inv → s.Inv → c.fault = false → s.fault = false → c.cstate = .idle →
    s.cstate = .idle →
    ∃ e, runSchedule [.drive .client ⟨false, 0x50000000#32, r1⟩, .relay .client,
        .drive .server ⟨false, 0x58000000#32, r2⟩, .relay .server, .drive .client ⟨false, 0x51000000#32, r3⟩,
        .relay .client, .drive .server ⟨false, 0x58000000#32, r4⟩] ⟨c, s⟩ = some e ∧
      e.client.cstate = .cEstablished ∧ e.server.cstate = .sEstablished ∧ e.client.fault = false ∧ e.server.fault = false

/-- R144, R146, R143: between two established blocks, the message the client sends comes back as the echo, byte for byte, even
if the host overwrites DATA and DLEN of the client while the echo is awaited (`writes`, any such commands, none too). The host
that relays the datagrams is the model's choice (log 11). -/
def Obligations.EchoReturnsTheMessage : Prop :=
  ∀ (c s : State) (r1 r2 r3 : Word) (writes : List (Instr × Word)), c.Inv → s.Inv → c.fault = false → s.fault = false →
    c.cstate = .cEstablished → s.cstate = .sEstablished → 5 + c.dlen.toNat ≤ maxPktOf s →
    (∀ o ∈ writes, (∃ idx v, o.1 = .wrData idx v ∧ idx.toNat < maxDataOf c) ∨
      ∃ v, o.1 = .setDlen v ∧ v.toNat ≤ maxDataOf c) →
    ∃ e, runSchedule
        ([.drive .client ⟨false, 0x52000000#32, r1⟩, .relay .client] ++
          writes.map (fun o => .drive .client ⟨false, encode o.1, o.2⟩) ++
          [.drive .server ⟨false, 0x58000000#32, r2⟩, .relay .server, .drive .client ⟨false, 0x51000000#32, r3⟩]) ⟨c, s⟩
        = some e ∧
      dataSegment e.client = dataSegment c ∧ e.client.dlen = c.dlen ∧ e.client.res = c.dlen ∧
      e.client.cstate = .cEstablished ∧ e.server.cstate = .sEstablished ∧ e.client.fault = false ∧ e.server.fault = false
end

