-- ==== Sys2Proof/Laws/Decode.lean ====
section
/-! SUPPORT. What the fields of an encoded word read as, and what each format's decoder answers. -/

namespace Sys2Proof

/-- Bits above the low part of a concatenation are the high part. -/
theorem extract_append_hi {n m : Nat} (x : BitVec n) (y : BitVec m) : (x ++ y).extractLsb' m n = x := by
  ext i hi
  simp [BitVec.getLsbD_append, hi]

/-- The low bits of a concatenation are the low part. -/
theorem extract_append_lo {n m : Nat} (x : BitVec n) (y : BitVec m) : (x ++ y).extractLsb' 0 m = y := by
  ext i hi
  simp [BitVec.getLsbD_append, hi]

theorem opcode_toNat {w : CmdWord} {op : Byte} (h : opcodeField w = op) : (opcodeField w).toNat = op.toNat := by rw [h]

theorem opcodeField_encodeN (op : Byte) : opcodeField (encodeN op) = op := extract_append_hi op 0#24

theorem decodeN_encodeN (op : Byte) (c : Instr) : decodeN (encodeN op) c = .ok c := by
  rw [decodeN, if_pos (show (encodeN op).extractLsb' 0 24 = 0#24 from extract_append_lo op 0#24)]

/-- The three parts of a word of 8, 8 and 16 bits. -/
theorem parts_8_8_16 (x y : Byte) (z : Word) (w : CmdWord) (h : w = x ++ y ++ z) :
    w.extractLsb' 24 8 = x ∧ w.extractLsb' 16 8 = y ∧ w.extractLsb' 0 16 = z := by
  subst h
  refine ⟨?_, ?_, ?_⟩ <;> ext i hi <;> simp [BitVec.getElem_extractLsb'] <;> grind

/-- The three parts of a word of 8, 16 and 8 bits. -/
theorem parts_8_16_8 (x : Byte) (y : Word) (z : Byte) (w : CmdWord) (h : w = x ++ y ++ z) :
    w.extractLsb' 24 8 = x ∧ w.extractLsb' 8 16 = y ∧ w.extractLsb' 0 8 = z := by
  subst h
  refine ⟨?_, ?_, ?_⟩ <;> ext i hi <;> simp [BitVec.getElem_extractLsb'] <;> grind

theorem opcodeField_encodeI (op : Byte) (imm : Word) : opcodeField (encodeI op imm) = op :=
  (parts_8_8_16 op 0#8 imm _ rfl).1

theorem opcodeField_encodeM (op mask : Byte) : opcodeField (encodeM op mask) = op :=
  (parts_8_16_8 op 0#16 mask _ rfl).1

theorem opcodeField_encodeB (op : Byte) (idx : Word) (val : Byte) : opcodeField (encodeB op idx val) = op :=
  (parts_8_16_8 op idx val _ rfl).1

theorem opcodeField_encodeX (op : Byte) (idx : Word) : opcodeField (encodeX op idx) = op :=
  (parts_8_16_8 op idx 0#8 _ rfl).1

theorem decodeI_encodeI (op : Byte) (imm : Word) (c : Word → Instr) : decodeI (encodeI op imm) c = .ok (c imm) := by
  have h := parts_8_8_16 op 0#8 imm _ rfl
  rw [decodeI, if_pos (show (encodeI op imm).extractLsb' 16 8 = 0#8 from h.2.1)]
  rw [imm16Field, show (encodeI op imm).extractLsb' 0 16 = imm from h.2.2]

theorem decodeM_encodeM (op mask : Byte) (c : Byte → Instr) : decodeM (encodeM op mask) c = .ok (c mask) := by
  have h := parts_8_16_8 op 0#16 mask _ rfl
  rw [decodeM, if_pos (show (encodeM op mask).extractLsb' 8 16 = 0#16 from h.2.1)]
  rw [low8Field, show (encodeM op mask).extractLsb' 0 8 = mask from h.2.2]

theorem decodeB_encodeB (op : Byte) (idx : Word) (val : Byte) (c : Word → Byte → Instr) :
    decodeB (encodeB op idx val) c = .ok (c idx val) := by
  have h := parts_8_16_8 op idx val _ rfl
  rw [decodeB, idx16Field, low8Field, show (encodeB op idx val).extractLsb' 8 16 = idx from h.2.1,
    show (encodeB op idx val).extractLsb' 0 8 = val from h.2.2]

theorem decodeX_encodeX (op : Byte) (idx : Word) (c : Word → Instr) : decodeX (encodeX op idx) c = .ok (c idx) := by
  have h := parts_8_16_8 op idx 0#8 _ rfl
  rw [decodeX, if_pos (show (encodeX op idx).extractLsb' 0 8 = 0#8 from h.2.2)]
  rw [idx16Field, show (encodeX op idx).extractLsb' 8 16 = idx from h.2.1]

end Sys2Proof
end

