-- ==== Sys2Proof/Laws/Memory.lean ====
section
/-! SUPPORT. The laws of a byte store: a read after a write, the canonical form, and byte strings. -/

namespace Sys2Proof.Machine

theorem lookupCell_storeCell_same (m : Memory) (a : Nat) (v : Byte) : lookupCell (storeCell m a v) a = some v := by
  induction m with
  | nil => simp [storeCell, lookupCell]
  | cons c m ih =>
    obtain ⟨b, w⟩ := c
    by_cases hlt : a < b
    · simp [storeCell, lookupCell, hlt]
    · by_cases heq : a = b
      · simp [storeCell, lookupCell, heq]
      · simp [storeCell, lookupCell, hlt, heq, ih]

theorem lookupCell_storeCell_ne (m : Memory) {a b : Nat} (v : Byte) (h : b ≠ a) :
    lookupCell (storeCell m a v) b = lookupCell m b := by
  induction m with
  | nil => simp [storeCell, lookupCell, h]
  | cons c m ih =>
    obtain ⟨k, w⟩ := c
    by_cases hlt : a < k
    · simp [storeCell, lookupCell, hlt, h]
    · by_cases heq : a = k
      · subst heq
        simp [storeCell, lookupCell, h]
      · simp [storeCell, lookupCell, hlt, heq, ih]

theorem mem_storeCell {m : Memory} {a : Nat} {v : Byte} {c : Host.Cell} (h : c ∈ storeCell m a v) : c = (a, v) ∨ c ∈ m := by
  induction m with
  | nil => simpa [storeCell] using h
  | cons d m ih =>
    obtain ⟨b, w⟩ := d
    simp only [storeCell] at h
    split at h
    · simpa using h
    · split at h
      · rcases List.mem_cons.mp h with h | h
        · exact .inl h
        · exact .inr (List.mem_cons_of_mem _ h)
      · rcases List.mem_cons.mp h with h | h
        · exact .inr (h ▸ List.mem_cons_self)
        · rcases ih h with h | h
          · exact .inl h
          · exact .inr (List.mem_cons_of_mem _ h)

/-- A write keeps the canonical form. -/
theorem storeCell_wf {m : Memory} (a : Nat) (v : Byte) (h : Memory.wf m) : Memory.wf (storeCell m a v) := by
  induction m with
  | nil => simp [storeCell, Memory.wf]
  | cons d m ih =>
    obtain ⟨b, w⟩ := d
    have hm := List.pairwise_cons.mp h
    simp only [storeCell]
    split
    · rename_i hlt
      refine List.pairwise_cons.mpr ⟨fun c hc => ?_, h⟩
      rcases List.mem_cons.mp hc with hc | hc
      · exact hc ▸ hlt
      · exact Nat.lt_trans hlt (hm.1 c hc)
    · split
      · rename_i heq
        exact List.pairwise_cons.mpr ⟨fun c hc => heq ▸ hm.1 c hc, hm.2⟩
      · refine List.pairwise_cons.mpr ⟨fun c hc => ?_, ih hm.2⟩
        rcases mem_storeCell hc with hc | hc
        · subst hc
          show b < a
          omega
        · exact hm.1 c hc

theorem storeCell_inside {m : Memory} {a n : Nat} (v : Byte) (ha : a < n) (h : ∀ c ∈ m, c.1 < n) :
    ∀ c ∈ storeCell m a v, c.1 < n := by
  intro c hc
  rcases mem_storeCell hc with hc | hc
  · exact hc ▸ ha
  · exact h c hc

/-- Writing a byte string keeps the canonical form. -/
theorem storeBytes_wf {m : Memory} (a : Nat) (vs : List Byte) (h : Memory.wf m) : Memory.wf (storeBytes m a vs) := by
  induction vs generalizing m a with
  | nil => exact h
  | cons v vs ih => exact ih (a + 1) (storeCell_wf a v h)

theorem storeBytes_inside {m : Memory} {a n : Nat} {vs : List Byte} (ha : a + vs.length ≤ n) (h : ∀ c ∈ m, c.1 < n) :
    ∀ c ∈ storeBytes m a vs, c.1 < n := by
  induction vs generalizing m a with
  | nil => exact h
  | cons v vs ih =>
    simp only [List.length_cons] at ha
    exact ih (by omega) (storeCell_inside v (by omega) h)

theorem lookupCell_storeBytes_before (m : Memory) {a b : Nat} (vs : List Byte) (h : b < a) :
    lookupCell (storeBytes m a vs) b = lookupCell m b := by
  induction vs generalizing m a with
  | nil => rfl
  | cons v vs ih =>
    rw [storeBytes, ih _ (by omega), lookupCell_storeCell_ne _ _ (by omega)]

/-- Outside the string written, nothing changes. -/
theorem lookupCell_storeBytes_after (m : Memory) {a b : Nat} (vs : List Byte) (h : a + vs.length ≤ b) :
    lookupCell (storeBytes m a vs) b = lookupCell m b := by
  induction vs generalizing m a with
  | nil => rfl
  | cons v vs ih =>
    simp only [List.length_cons] at h
    rw [storeBytes, ih _ (by omega), lookupCell_storeCell_ne _ _ (by omega)]

/-- Inside it, each address holds its byte of the string. -/
theorem lookupCell_storeBytes_inside (m : Memory) (a : Nat) {vs : List Byte} {k : Nat} (h : k < vs.length) :
    lookupCell (storeBytes m a vs) (a + k) = some vs[k] := by
  induction vs generalizing m a k with
  | nil => simp at h
  | cons v vs ih =>
    cases k with
    | zero => simp [storeBytes, lookupCell_storeBytes_before _ vs (Nat.lt_succ_self a), lookupCell_storeCell_same]
    | succ k =>
      simp only [List.length_cons] at h
      have := ih (storeCell m a v) (a + 1) (k := k) (by omega)
      simpa [storeBytes, Nat.add_assoc, Nat.add_comm 1 k] using this

@[simp] theorem bytesFrom_length (rd : Nat → Byte) (a n : Nat) : (bytesFrom rd a n).length = n := by
  induction n generalizing a with
  | zero => rfl
  | succ n ih => simp [bytesFrom, ih]

theorem bytesFrom_getElem (rd : Nat → Byte) (a : Nat) {n k : Nat} (h : k < (bytesFrom rd a n).length) :
    (bytesFrom rd a n)[k] = rd (a + k) := by
  induction n generalizing a k with
  | zero => simp at h
  | succ n ih =>
    cases k with
    | zero => rfl
    | succ k =>
      have := ih (a + 1) (k := k) (by simpa using h)
      simpa [bytesFrom, Nat.add_assoc, Nat.add_comm 1 k] using this

/-- Two byte strings read alike where their reads agree. -/
theorem bytesFrom_congr {rd rd' : Nat → Byte} {a b n : Nat} (h : ∀ k, k < n → rd (a + k) = rd' (b + k)) :
    bytesFrom rd a n = bytesFrom rd' b n := by
  refine List.ext_getElem (by simp) fun k h1 h2 => ?_
  rw [bytesFrom_getElem, bytesFrom_getElem]
  exact h k (by simpa using h1)

end Sys2Proof.Machine
end

