-- ==== Sys2Proof/Laws/State.lean ====
section
/-! SUPPORT. The fields after each register update: one lemma a field and update. -/

namespace Sys2Proof.Machine

/-! ### setHdr -/

@[simp] theorem setHdr_hdr (s : State) (v : Header) : (setHdr s v).hdr = v := rfl
@[simp] theorem setHdr_pkt (s : State) (v : Header) : (setHdr s v).pkt = s.pkt := rfl
@[simp] theorem setHdr_plen (s : State) (v : Header) : (setHdr s v).plen = s.plen := rfl
@[simp] theorem setHdr_data (s : State) (v : Header) : (setHdr s v).data = s.data := rfl
@[simp] theorem setHdr_dlen (s : State) (v : Header) : (setHdr s v).dlen = s.dlen := rfl
@[simp] theorem setHdr_res (s : State) (v : Header) : (setHdr s v).res = s.res := rfl
@[simp] theorem setHdr_origSeq (s : State) (v : Header) : (setHdr s v).origSeq = s.origSeq := rfl
@[simp] theorem setHdr_cstate (s : State) (v : Header) : (setHdr s v).cstate = s.cstate := rfl
@[simp] theorem setHdr_txv (s : State) (v : Header) : (setHdr s v).txv = s.txv := rfl
@[simp] theorem setHdr_fault (s : State) (v : Header) : (setHdr s v).fault = s.fault := rfl
@[simp] theorem setHdr_err (s : State) (v : Header) : (setHdr s v).err = s.err := rfl
@[simp] theorem setHdr_maxData (s : State) (v : Header) : (setHdr s v).maxData = s.maxData := rfl
@[simp] theorem setHdr_draw (s : State) (v : Header) : (setHdr s v).draw = s.draw := rfl
@[simp] theorem setHdr_rnd (s : State) (v : Header) : (setHdr s v).rnd = s.rnd := rfl
@[simp] theorem setHdr_pending (s : State) (v : Header) : (setHdr s v).pending = s.pending := rfl

/-! ### setPkt -/

@[simp] theorem setPkt_hdr (s : State) (v : Memory) : (setPkt s v).hdr = s.hdr := rfl
@[simp] theorem setPkt_pkt (s : State) (v : Memory) : (setPkt s v).pkt = v := rfl
@[simp] theorem setPkt_plen (s : State) (v : Memory) : (setPkt s v).plen = s.plen := rfl
@[simp] theorem setPkt_data (s : State) (v : Memory) : (setPkt s v).data = s.data := rfl
@[simp] theorem setPkt_dlen (s : State) (v : Memory) : (setPkt s v).dlen = s.dlen := rfl
@[simp] theorem setPkt_res (s : State) (v : Memory) : (setPkt s v).res = s.res := rfl
@[simp] theorem setPkt_origSeq (s : State) (v : Memory) : (setPkt s v).origSeq = s.origSeq := rfl
@[simp] theorem setPkt_cstate (s : State) (v : Memory) : (setPkt s v).cstate = s.cstate := rfl
@[simp] theorem setPkt_txv (s : State) (v : Memory) : (setPkt s v).txv = s.txv := rfl
@[simp] theorem setPkt_fault (s : State) (v : Memory) : (setPkt s v).fault = s.fault := rfl
@[simp] theorem setPkt_err (s : State) (v : Memory) : (setPkt s v).err = s.err := rfl
@[simp] theorem setPkt_maxData (s : State) (v : Memory) : (setPkt s v).maxData = s.maxData := rfl
@[simp] theorem setPkt_draw (s : State) (v : Memory) : (setPkt s v).draw = s.draw := rfl
@[simp] theorem setPkt_rnd (s : State) (v : Memory) : (setPkt s v).rnd = s.rnd := rfl
@[simp] theorem setPkt_pending (s : State) (v : Memory) : (setPkt s v).pending = s.pending := rfl

/-! ### setPlen -/

@[simp] theorem setPlen_hdr (s : State) (v : Word) : (setPlen s v).hdr = s.hdr := rfl
@[simp] theorem setPlen_pkt (s : State) (v : Word) : (setPlen s v).pkt = s.pkt := rfl
@[simp] theorem setPlen_plen (s : State) (v : Word) : (setPlen s v).plen = v := rfl
@[simp] theorem setPlen_data (s : State) (v : Word) : (setPlen s v).data = s.data := rfl
@[simp] theorem setPlen_dlen (s : State) (v : Word) : (setPlen s v).dlen = s.dlen := rfl
@[simp] theorem setPlen_res (s : State) (v : Word) : (setPlen s v).res = s.res := rfl
@[simp] theorem setPlen_origSeq (s : State) (v : Word) : (setPlen s v).origSeq = s.origSeq := rfl
@[simp] theorem setPlen_cstate (s : State) (v : Word) : (setPlen s v).cstate = s.cstate := rfl
@[simp] theorem setPlen_txv (s : State) (v : Word) : (setPlen s v).txv = s.txv := rfl
@[simp] theorem setPlen_fault (s : State) (v : Word) : (setPlen s v).fault = s.fault := rfl
@[simp] theorem setPlen_err (s : State) (v : Word) : (setPlen s v).err = s.err := rfl
@[simp] theorem setPlen_maxData (s : State) (v : Word) : (setPlen s v).maxData = s.maxData := rfl
@[simp] theorem setPlen_draw (s : State) (v : Word) : (setPlen s v).draw = s.draw := rfl
@[simp] theorem setPlen_rnd (s : State) (v : Word) : (setPlen s v).rnd = s.rnd := rfl
@[simp] theorem setPlen_pending (s : State) (v : Word) : (setPlen s v).pending = s.pending := rfl

/-! ### setData -/

@[simp] theorem setData_hdr (s : State) (v : Memory) : (setData s v).hdr = s.hdr := rfl
@[simp] theorem setData_pkt (s : State) (v : Memory) : (setData s v).pkt = s.pkt := rfl
@[simp] theorem setData_plen (s : State) (v : Memory) : (setData s v).plen = s.plen := rfl
@[simp] theorem setData_data (s : State) (v : Memory) : (setData s v).data = v := rfl
@[simp] theorem setData_dlen (s : State) (v : Memory) : (setData s v).dlen = s.dlen := rfl
@[simp] theorem setData_res (s : State) (v : Memory) : (setData s v).res = s.res := rfl
@[simp] theorem setData_origSeq (s : State) (v : Memory) : (setData s v).origSeq = s.origSeq := rfl
@[simp] theorem setData_cstate (s : State) (v : Memory) : (setData s v).cstate = s.cstate := rfl
@[simp] theorem setData_txv (s : State) (v : Memory) : (setData s v).txv = s.txv := rfl
@[simp] theorem setData_fault (s : State) (v : Memory) : (setData s v).fault = s.fault := rfl
@[simp] theorem setData_err (s : State) (v : Memory) : (setData s v).err = s.err := rfl
@[simp] theorem setData_maxData (s : State) (v : Memory) : (setData s v).maxData = s.maxData := rfl
@[simp] theorem setData_draw (s : State) (v : Memory) : (setData s v).draw = s.draw := rfl
@[simp] theorem setData_rnd (s : State) (v : Memory) : (setData s v).rnd = s.rnd := rfl
@[simp] theorem setData_pending (s : State) (v : Memory) : (setData s v).pending = s.pending := rfl

/-! ### setDlen -/

@[simp] theorem setDlen_hdr (s : State) (v : Word) : (setDlen s v).hdr = s.hdr := rfl
@[simp] theorem setDlen_pkt (s : State) (v : Word) : (setDlen s v).pkt = s.pkt := rfl
@[simp] theorem setDlen_plen (s : State) (v : Word) : (setDlen s v).plen = s.plen := rfl
@[simp] theorem setDlen_data (s : State) (v : Word) : (setDlen s v).data = s.data := rfl
@[simp] theorem setDlen_dlen (s : State) (v : Word) : (setDlen s v).dlen = v := rfl
@[simp] theorem setDlen_res (s : State) (v : Word) : (setDlen s v).res = s.res := rfl
@[simp] theorem setDlen_origSeq (s : State) (v : Word) : (setDlen s v).origSeq = s.origSeq := rfl
@[simp] theorem setDlen_cstate (s : State) (v : Word) : (setDlen s v).cstate = s.cstate := rfl
@[simp] theorem setDlen_txv (s : State) (v : Word) : (setDlen s v).txv = s.txv := rfl
@[simp] theorem setDlen_fault (s : State) (v : Word) : (setDlen s v).fault = s.fault := rfl
@[simp] theorem setDlen_err (s : State) (v : Word) : (setDlen s v).err = s.err := rfl
@[simp] theorem setDlen_maxData (s : State) (v : Word) : (setDlen s v).maxData = s.maxData := rfl
@[simp] theorem setDlen_draw (s : State) (v : Word) : (setDlen s v).draw = s.draw := rfl
@[simp] theorem setDlen_rnd (s : State) (v : Word) : (setDlen s v).rnd = s.rnd := rfl
@[simp] theorem setDlen_pending (s : State) (v : Word) : (setDlen s v).pending = s.pending := rfl

/-! ### setRes -/

@[simp] theorem setRes_hdr (s : State) (v : Word) : (setRes s v).hdr = s.hdr := rfl
@[simp] theorem setRes_pkt (s : State) (v : Word) : (setRes s v).pkt = s.pkt := rfl
@[simp] theorem setRes_plen (s : State) (v : Word) : (setRes s v).plen = s.plen := rfl
@[simp] theorem setRes_data (s : State) (v : Word) : (setRes s v).data = s.data := rfl
@[simp] theorem setRes_dlen (s : State) (v : Word) : (setRes s v).dlen = s.dlen := rfl
@[simp] theorem setRes_res (s : State) (v : Word) : (setRes s v).res = v := rfl
@[simp] theorem setRes_origSeq (s : State) (v : Word) : (setRes s v).origSeq = s.origSeq := rfl
@[simp] theorem setRes_cstate (s : State) (v : Word) : (setRes s v).cstate = s.cstate := rfl
@[simp] theorem setRes_txv (s : State) (v : Word) : (setRes s v).txv = s.txv := rfl
@[simp] theorem setRes_fault (s : State) (v : Word) : (setRes s v).fault = s.fault := rfl
@[simp] theorem setRes_err (s : State) (v : Word) : (setRes s v).err = s.err := rfl
@[simp] theorem setRes_maxData (s : State) (v : Word) : (setRes s v).maxData = s.maxData := rfl
@[simp] theorem setRes_draw (s : State) (v : Word) : (setRes s v).draw = s.draw := rfl
@[simp] theorem setRes_rnd (s : State) (v : Word) : (setRes s v).rnd = s.rnd := rfl
@[simp] theorem setRes_pending (s : State) (v : Word) : (setRes s v).pending = s.pending := rfl

/-! ### setOrigSeq -/

@[simp] theorem setOrigSeq_hdr (s : State) (v : Word) : (setOrigSeq s v).hdr = s.hdr := rfl
@[simp] theorem setOrigSeq_pkt (s : State) (v : Word) : (setOrigSeq s v).pkt = s.pkt := rfl
@[simp] theorem setOrigSeq_plen (s : State) (v : Word) : (setOrigSeq s v).plen = s.plen := rfl
@[simp] theorem setOrigSeq_data (s : State) (v : Word) : (setOrigSeq s v).data = s.data := rfl
@[simp] theorem setOrigSeq_dlen (s : State) (v : Word) : (setOrigSeq s v).dlen = s.dlen := rfl
@[simp] theorem setOrigSeq_res (s : State) (v : Word) : (setOrigSeq s v).res = s.res := rfl
@[simp] theorem setOrigSeq_origSeq (s : State) (v : Word) : (setOrigSeq s v).origSeq = v := rfl
@[simp] theorem setOrigSeq_cstate (s : State) (v : Word) : (setOrigSeq s v).cstate = s.cstate := rfl
@[simp] theorem setOrigSeq_txv (s : State) (v : Word) : (setOrigSeq s v).txv = s.txv := rfl
@[simp] theorem setOrigSeq_fault (s : State) (v : Word) : (setOrigSeq s v).fault = s.fault := rfl
@[simp] theorem setOrigSeq_err (s : State) (v : Word) : (setOrigSeq s v).err = s.err := rfl
@[simp] theorem setOrigSeq_maxData (s : State) (v : Word) : (setOrigSeq s v).maxData = s.maxData := rfl
@[simp] theorem setOrigSeq_draw (s : State) (v : Word) : (setOrigSeq s v).draw = s.draw := rfl
@[simp] theorem setOrigSeq_rnd (s : State) (v : Word) : (setOrigSeq s v).rnd = s.rnd := rfl
@[simp] theorem setOrigSeq_pending (s : State) (v : Word) : (setOrigSeq s v).pending = s.pending := rfl

/-! ### setCstate -/

@[simp] theorem setCstate_hdr (s : State) (v : CState) : (setCstate s v).hdr = s.hdr := rfl
@[simp] theorem setCstate_pkt (s : State) (v : CState) : (setCstate s v).pkt = s.pkt := rfl
@[simp] theorem setCstate_plen (s : State) (v : CState) : (setCstate s v).plen = s.plen := rfl
@[simp] theorem setCstate_data (s : State) (v : CState) : (setCstate s v).data = s.data := rfl
@[simp] theorem setCstate_dlen (s : State) (v : CState) : (setCstate s v).dlen = s.dlen := rfl
@[simp] theorem setCstate_res (s : State) (v : CState) : (setCstate s v).res = s.res := rfl
@[simp] theorem setCstate_origSeq (s : State) (v : CState) : (setCstate s v).origSeq = s.origSeq := rfl
@[simp] theorem setCstate_cstate (s : State) (v : CState) : (setCstate s v).cstate = v := rfl
@[simp] theorem setCstate_txv (s : State) (v : CState) : (setCstate s v).txv = s.txv := rfl
@[simp] theorem setCstate_fault (s : State) (v : CState) : (setCstate s v).fault = s.fault := rfl
@[simp] theorem setCstate_err (s : State) (v : CState) : (setCstate s v).err = s.err := rfl
@[simp] theorem setCstate_maxData (s : State) (v : CState) : (setCstate s v).maxData = s.maxData := rfl
@[simp] theorem setCstate_draw (s : State) (v : CState) : (setCstate s v).draw = s.draw := rfl
@[simp] theorem setCstate_rnd (s : State) (v : CState) : (setCstate s v).rnd = s.rnd := rfl
@[simp] theorem setCstate_pending (s : State) (v : CState) : (setCstate s v).pending = s.pending := rfl

/-! ### setTxv -/

@[simp] theorem setTxv_hdr (s : State) (v : Bool) : (setTxv s v).hdr = s.hdr := rfl
@[simp] theorem setTxv_pkt (s : State) (v : Bool) : (setTxv s v).pkt = s.pkt := rfl
@[simp] theorem setTxv_plen (s : State) (v : Bool) : (setTxv s v).plen = s.plen := rfl
@[simp] theorem setTxv_data (s : State) (v : Bool) : (setTxv s v).data = s.data := rfl
@[simp] theorem setTxv_dlen (s : State) (v : Bool) : (setTxv s v).dlen = s.dlen := rfl
@[simp] theorem setTxv_res (s : State) (v : Bool) : (setTxv s v).res = s.res := rfl
@[simp] theorem setTxv_origSeq (s : State) (v : Bool) : (setTxv s v).origSeq = s.origSeq := rfl
@[simp] theorem setTxv_cstate (s : State) (v : Bool) : (setTxv s v).cstate = s.cstate := rfl
@[simp] theorem setTxv_txv (s : State) (v : Bool) : (setTxv s v).txv = v := rfl
@[simp] theorem setTxv_fault (s : State) (v : Bool) : (setTxv s v).fault = s.fault := rfl
@[simp] theorem setTxv_err (s : State) (v : Bool) : (setTxv s v).err = s.err := rfl
@[simp] theorem setTxv_maxData (s : State) (v : Bool) : (setTxv s v).maxData = s.maxData := rfl
@[simp] theorem setTxv_draw (s : State) (v : Bool) : (setTxv s v).draw = s.draw := rfl
@[simp] theorem setTxv_rnd (s : State) (v : Bool) : (setTxv s v).rnd = s.rnd := rfl
@[simp] theorem setTxv_pending (s : State) (v : Bool) : (setTxv s v).pending = s.pending := rfl

/-! ### setInput -/

@[simp] theorem setInput_hdr (s : State) (r : Word) (p : List HostInput) : (setInput s r p).hdr = s.hdr := rfl
@[simp] theorem setInput_pkt (s : State) (r : Word) (p : List HostInput) : (setInput s r p).pkt = s.pkt := rfl
@[simp] theorem setInput_plen (s : State) (r : Word) (p : List HostInput) : (setInput s r p).plen = s.plen := rfl
@[simp] theorem setInput_data (s : State) (r : Word) (p : List HostInput) : (setInput s r p).data = s.data := rfl
@[simp] theorem setInput_dlen (s : State) (r : Word) (p : List HostInput) : (setInput s r p).dlen = s.dlen := rfl
@[simp] theorem setInput_res (s : State) (r : Word) (p : List HostInput) : (setInput s r p).res = s.res := rfl
@[simp] theorem setInput_origSeq (s : State) (r : Word) (p : List HostInput) : (setInput s r p).origSeq = s.origSeq := rfl
@[simp] theorem setInput_cstate (s : State) (r : Word) (p : List HostInput) : (setInput s r p).cstate = s.cstate := rfl
@[simp] theorem setInput_txv (s : State) (r : Word) (p : List HostInput) : (setInput s r p).txv = s.txv := rfl
@[simp] theorem setInput_fault (s : State) (r : Word) (p : List HostInput) : (setInput s r p).fault = s.fault := rfl
@[simp] theorem setInput_err (s : State) (r : Word) (p : List HostInput) : (setInput s r p).err = s.err := rfl
@[simp] theorem setInput_maxData (s : State) (r : Word) (p : List HostInput) : (setInput s r p).maxData = s.maxData := rfl
@[simp] theorem setInput_draw (s : State) (r : Word) (p : List HostInput) : (setInput s r p).draw = s.draw := rfl
@[simp] theorem setInput_rnd (s : State) (r : Word) (p : List HostInput) : (setInput s r p).rnd = r := rfl
@[simp] theorem setInput_pending (s : State) (r : Word) (p : List HostInput) : (setInput s r p).pending = p := rfl

/-! ### takeFault (R152) -/

@[simp] theorem takeFault_hdr (e : Err) (s : State) : (takeFault e s).hdr = s.hdr := rfl
@[simp] theorem takeFault_pkt (e : Err) (s : State) : (takeFault e s).pkt = s.pkt := rfl
@[simp] theorem takeFault_plen (e : Err) (s : State) : (takeFault e s).plen = s.plen := rfl
@[simp] theorem takeFault_data (e : Err) (s : State) : (takeFault e s).data = s.data := rfl
@[simp] theorem takeFault_dlen (e : Err) (s : State) : (takeFault e s).dlen = s.dlen := rfl
@[simp] theorem takeFault_res (e : Err) (s : State) : (takeFault e s).res = s.res := rfl
@[simp] theorem takeFault_origSeq (e : Err) (s : State) : (takeFault e s).origSeq = s.origSeq := rfl
@[simp] theorem takeFault_cstate (e : Err) (s : State) : (takeFault e s).cstate = s.cstate := rfl
@[simp] theorem takeFault_txv (e : Err) (s : State) : (takeFault e s).txv = s.txv := rfl
@[simp] theorem takeFault_fault (e : Err) (s : State) : (takeFault e s).fault = true := rfl
@[simp] theorem takeFault_err (e : Err) (s : State) : (takeFault e s).err = e := rfl
@[simp] theorem takeFault_maxData (e : Err) (s : State) : (takeFault e s).maxData = s.maxData := rfl
@[simp] theorem takeFault_draw (e : Err) (s : State) : (takeFault e s).draw = s.draw := rfl
@[simp] theorem takeFault_rnd (e : Err) (s : State) : (takeFault e s).rnd = s.rnd := rfl
@[simp] theorem takeFault_pending (e : Err) (s : State) : (takeFault e s).pending = s.pending := rfl

/-! ### assertReset (R170) -/

@[simp] theorem assertReset_hdr (s : State) : (assertReset s).hdr = emptyHdr := rfl
@[simp] theorem assertReset_pkt (s : State) : (assertReset s).pkt = [] := rfl
@[simp] theorem assertReset_plen (s : State) : (assertReset s).plen = 0#16 := rfl
@[simp] theorem assertReset_data (s : State) : (assertReset s).data = [] := rfl
@[simp] theorem assertReset_dlen (s : State) : (assertReset s).dlen = 0#16 := rfl
@[simp] theorem assertReset_res (s : State) : (assertReset s).res = 0#16 := rfl
@[simp] theorem assertReset_origSeq (s : State) : (assertReset s).origSeq = 0#16 := rfl
@[simp] theorem assertReset_cstate (s : State) : (assertReset s).cstate = .idle := rfl
@[simp] theorem assertReset_txv (s : State) : (assertReset s).txv = false := rfl
@[simp] theorem assertReset_fault (s : State) : (assertReset s).fault = false := rfl
@[simp] theorem assertReset_err (s : State) : (assertReset s).err = .noError := rfl
@[simp] theorem assertReset_maxData (s : State) : (assertReset s).maxData = s.maxData := rfl
@[simp] theorem assertReset_draw (s : State) : (assertReset s).draw = s.draw + 1 := rfl
@[simp] theorem assertReset_rnd (s : State) : (assertReset s).rnd = s.rnd := rfl
@[simp] theorem assertReset_pending (s : State) : (assertReset s).pending = s.pending := rfl

/-! ### Reset -/

/-- The reset memories are in canonical form, for every value of the parameter. -/
theorem resetWith_memory_wf (m : Fin 65531) (d : Nat) (r : Word) (p : List HostInput) :
    Memory.wf (State.resetWith m d r p).pkt ∧ Memory.wf (State.resetWith m d r p).data := ⟨.nil, .nil⟩

end Sys2Proof.Machine
end

