-- ==== Sys2Proof/Laws/Ops.lean ====
section
/-! SUPPORT. What each shared operation can do, said once: the prologue, the checks, the reads of PKT and DATA after an
update, and the bodies that more than one command performs. -/

namespace Sys2Proof.Machine

/-! ### The prologue (R9, R153) -/

theorem command_halted {c : Option Err} {body : State → Result} {s : State} (h : s.fault = true) :
    command c body s = .next s := by
  simp [command, h]

theorem command_error {e : Err} {body : State → Result} {s : State} (h : s.fault = false) :
    command (some e) body s = .next (takeFault e s) := by
  simp [command, h]

theorem command_runs {body : State → Result} {s : State} (h : s.fault = false) :
    command none body s = body (setTxv s false) := by
  simp [command, h]

/-- Everything a command can do when it answers a next state. -/
theorem command_next_cases {c : Option Err} {body : State → Result} {s t : State} (h : command c body s = .next t) :
    (s.fault = true ∧ t = s) ∨ (s.fault = false ∧ ∃ e, c = some e ∧ t = takeFault e s) ∨
      (s.fault = false ∧ c = none ∧ body (setTxv s false) = .next t) := by
  cases hf : s.fault with
  | true =>
    rw [command_halted hf] at h
    exact .inl ⟨rfl, (Host.Outcome.next.inj h).symm⟩
  | false =>
    cases c with
    | some e =>
      rw [command_error hf] at h
      exact .inr (.inl ⟨rfl, e, rfl, (Host.Outcome.next.inj h).symm⟩)
    | none =>
      rw [command_runs hf] at h
      exact .inr (.inr ⟨rfl, rfl, h⟩)

theorem andThen_next {r : Result} {k : State → Result} {t : State} (h : andThen r k = .next t) :
    ∃ u, r = .next u ∧ k u = .next t := by
  cases r with
  | next u => exact ⟨u, rfl, h⟩
  | fault f => cases h
  | refused f => cases h

@[simp] theorem andThen_of_next (s : State) (k : State → Result) : andThen (.next s) k = k s := rfl

/-! ### Checks (R153) -/

theorem checkIndex_none {idx : Word} {n : Nat} : checkIndex idx n = none ↔ idx.toNat < n := by
  unfold checkIndex
  split <;> simp_all

theorem checkIndex_some {idx : Word} {n : Nat} {e : Err} : checkIndex idx n = some e ↔ n ≤ idx.toNat ∧ e = .indexRange := by
  unfold checkIndex
  split <;> simp_all <;> first | omega | exact eq_comm

theorem checkLength_none {len : Word} {n : Nat} : checkLength len n = none ↔ len.toNat ≤ n := by
  unfold checkLength
  split <;> simp_all

theorem checkLength_some {len : Word} {n : Nat} {e : Err} : checkLength len n = some e ↔ n < len.toNat ∧ e = .indexRange := by
  unfold checkLength
  split <;> simp_all <;> first | omega | exact eq_comm

theorem checkHeader_none {s : State} : checkHeader s = none ↔ 5 ≤ s.plen.toNat := by
  unfold checkHeader
  split <;> simp_all

theorem checkHeader_some {s : State} {e : Err} : checkHeader s = some e ↔ s.plen.toNat < 5 ∧ e = .malformedHeader := by
  unfold checkHeader
  split <;> simp_all <;> first | omega | exact eq_comm

theorem checkState_none {l : List CState} {s : State} : checkState l s = none ↔ s.cstate ∈ l := by
  unfold checkState
  split <;> simp_all

theorem checkState_some {l : List CState} {s : State} {e : Err} :
    checkState l s = some e ↔ s.cstate ∉ l ∧ e = .illegalState := by
  unfold checkState
  split <;> simp_all <;> exact eq_comm

/-! ### Reads of PKT and DATA -/

/-- A read of PKT depends on PKT and on the draw alone. -/
theorem readPkt_congr {s t : State} (hp : t.pkt = s.pkt) (hd : t.draw = s.draw) (a : Nat) : readPkt t a = readPkt s a := by
  simp [readPkt, hp, hd]

/-- A read of DATA depends on DATA and on the draw alone. -/
theorem readData_congr {s t : State} (hp : t.data = s.data) (hd : t.draw = s.draw) (a : Nat) :
    readData t a = readData s a := by
  simp [readData, hp, hd]

theorem readPkt_storeCell_same (s : State) (a : Nat) (v : Byte) : readPkt (setPkt s (storeCell s.pkt a v)) a = v := by
  simp [readPkt, lookupCell_storeCell_same]

theorem readPkt_storeCell_ne (s : State) {a b : Nat} (v : Byte) (h : b ≠ a) :
    readPkt (setPkt s (storeCell s.pkt a v)) b = readPkt s b := by
  simp [readPkt, lookupCell_storeCell_ne _ _ h]

theorem readData_storeCell_same (s : State) (a : Nat) (v : Byte) :
    readData (setData s (storeCell s.data a v)) a = v := by
  simp [readData, lookupCell_storeCell_same]

theorem readData_storeCell_ne (s : State) {a b : Nat} (v : Byte) (h : b ≠ a) :
    readData (setData s (storeCell s.data a v)) b = readData s b := by
  simp [readData, lookupCell_storeCell_ne _ _ h]

theorem readPkt_storeBytes_inside {s t : State} {a k : Nat} {vs : List Byte} (hp : t.pkt = storeBytes s.pkt a vs)
    (h : k < vs.length) : readPkt t (a + k) = vs[k] := by
  simp [readPkt, hp, lookupCell_storeBytes_inside _ _ h]

theorem readPkt_storeBytes_after {s t : State} {a b : Nat} {vs : List Byte} (hp : t.pkt = storeBytes s.pkt a vs)
    (hd : t.draw = s.draw) (h : a + vs.length ≤ b) : readPkt t b = readPkt s b := by
  simp [readPkt, hp, hd, lookupCell_storeBytes_after _ _ h]

theorem readData_storeBytes_inside {s t : State} {a k : Nat} {vs : List Byte} (hp : t.data = storeBytes s.data a vs)
    (h : k < vs.length) : readData t (a + k) = vs[k] := by
  simp [readData, hp, lookupCell_storeBytes_inside _ _ h]

theorem readData_storeBytes_after {s t : State} {a b : Nat} {vs : List Byte} (hp : t.data = storeBytes s.data a vs)
    (hd : t.draw = s.draw) (h : a + vs.length ≤ b) : readData t b = readData s b := by
  simp [readData, hp, hd, lookupCell_storeBytes_after _ _ h]

@[simp] theorem hdrBytes_length (h : Header) : (hdrBytes h).length = 5 := rfl

/-! ### Header transfers (R111) -/

theorem loadHdr_hdr (s : State) : (loadHdr s).hdr = headerInPkt s := rfl

/-- A state whose PKT is `s`'s with `h` written at 0 holds `h` there, and keeps the rest. -/
theorem header_stored {s t : State} {h : Header} {vs : List Byte} (hp : t.pkt = storeBytes s.pkt 0 (hdrBytes h ++ vs)) :
    headerInPkt t = h := by
  have key : ∀ k (hk : k < 5), readPkt t k = (hdrBytes h)[k]'(by simpa using hk) := by
    intro k hk
    have := readPkt_storeBytes_inside (k := k) hp (by simp; omega)
    rw [Nat.zero_add] at this
    rw [this, List.getElem_append_left]
  simp only [headerInPkt, key 0 (by omega), key 1 (by omega), key 2 (by omega), key 3 (by omega), key 4 (by omega)]
  rfl

theorem storeHdr_header (s : State) : headerInPkt (storeHdr s) = s.hdr :=
  header_stored (s := s) (vs := []) (by simp [storeHdr])

theorem storeHdr_keeps (s : State) : PktKeptFrom 5 s (storeHdr s) := fun a ha =>
  readPkt_storeBytes_after (a := 0) (vs := hdrBytes s.hdr) (by simp [storeHdr]) (by simp [storeHdr]) (by simpa using ha)

/-! ### Shared bodies -/

/-- ASSEMBLE's body, everything it does (R100). -/
theorem assembleBody_next {s t : State} (h : assembleBody s = .next t) :
    s.dlen.toNat ≤ maxDataOf s ∧ t = { s with pkt := t.pkt, plen := 5#16 + s.dlen } ∧
      t.pkt = storeBytes s.pkt 0 (hdrBytes s.hdr ++ dataSegment s) := by
  unfold assembleBody at h
  split at h
  · rename_i hle
    obtain rfl := Host.Outcome.next.inj h
    exact ⟨hle, rfl, rfl⟩
  · cases h

theorem assembleBody_runs {s : State} (h : s.dlen.toNat ≤ maxDataOf s) : ∃ t, assembleBody s = .next t := by
  simp [assembleBody, h]

/-- PLEN after ASSEMBLE does not wrap (R100). -/
theorem assembled_plen {s : State} (h : s.dlen.toNat ≤ maxDataOf s) : (5#16 + s.dlen).toNat = 5 + s.dlen.toNat := by
  have : maxDataOf s < 65531 := s.maxData.isLt
  rw [BitVec.toNat_add]
  simp
  omega

theorem assembleBody_assembled {s t : State} (h : assembleBody s = .next t) : Assembled s.hdr s t := by
  obtain ⟨hle, ht, hp⟩ := assembleBody_next h
  have hd : t.draw = s.draw := by rw [ht]
  refine ⟨header_stored hp, fun k hk => ?_, fun a ha => ?_, ?_⟩
  · have := readPkt_storeBytes_inside (k := 5 + k) hp (by simp [dataSegment]; omega)
    rw [Nat.zero_add] at this
    rw [this, List.getElem_append_right (by simp)]
    simp [dataSegment, bytesFrom_getElem]
  · exact readPkt_storeBytes_after hp hd (by simp [dataSegment]; omega)
  · rw [ht]
    exact assembled_plen hle

/-- SPLIT's body, everything it does (R101). -/
theorem splitBody_next {s t : State} (h : splitBody s = .next t) :
    s.plen.toNat ≤ maxPktOf s ∧
      t = { s with hdr := headerInPkt s, data := t.data, dlen := s.plen - 5#16 } ∧
      t.data = storeBytes s.data 0 (bytesFrom (readPkt s) 5 (s.plen.toNat - 5)) := by
  unfold splitBody at h
  split at h
  · rename_i hle
    obtain rfl := Host.Outcome.next.inj h
    exact ⟨hle, rfl, rfl⟩
  · cases h

theorem splitBody_runs {s : State} (h : s.plen.toNat ≤ maxPktOf s) : ∃ t, splitBody s = .next t := by
  simp [splitBody, h]

theorem split_dlen {s : State} (h : 5 ≤ s.plen.toNat) : (s.plen - 5#16).toNat = s.plen.toNat - 5 := by
  rw [BitVec.toNat_sub_of_le (by simpa [BitVec.le_def] using h)]
  rfl

theorem splitBody_split {s t : State} (h5 : 5 ≤ s.plen.toNat) (h : splitBody s = .next t) : SplitMade s t := by
  obtain ⟨_, ht, hp⟩ := splitBody_next h
  have hd : t.draw = s.draw := by rw [ht]
  refine ⟨by rw [ht], ?_, fun k hk => ?_, fun a ha => ?_⟩
  · rw [ht]
    exact split_dlen h5
  · have := readData_storeBytes_inside (k := k) hp (by simpa using hk)
    rw [Nat.zero_add] at this
    rw [this, bytesFrom_getElem]
  · exact readData_storeBytes_after hp hd (by simpa using ha)

/-- A fresh packet, everything it does (R120, R121). -/
theorem freshPacket_eq (h : Header) (s : State) :
    freshPacket h s = { s with hdr := h, pkt := storeBytes s.pkt 0 (hdrBytes h), plen := 5#16 } := rfl

/-- An acknowledgement in place, everything it does (R115). -/
theorem ackInPlace_eq (xf : Header → Header) (s : State) :
    ackInPlace xf s = { s with hdr := xf (headerInPkt s), pkt := storeBytes s.pkt 0 (hdrBytes (xf (headerInPkt s))) } := rfl

/-- The packet an acknowledgement leaves in PKT: the transformed header, and the rest as before (R115). -/
theorem ackInPlace_packet (xf : Header → Header) (s : State) :
    headerInPkt (ackInPlace xf s) = xf (headerInPkt s) ∧ PktKeptFrom 5 s (ackInPlace xf s) :=
  ⟨header_stored (s := s) (vs := []) (by simp [ackInPlace_eq]),
   fun a ha => readPkt_storeBytes_after (a := 0) (vs := hdrBytes (xf (headerInPkt s))) (by simp [ackInPlace_eq])
     (by simp [ackInPlace_eq]) (by simpa using ha)⟩

/-- The packet a fresh header leaves in PKT. -/
theorem freshPacket_packet (h : Header) (s : State) :
    headerInPkt (freshPacket h s) = h ∧ PktKeptFrom 5 s (freshPacket h s) :=
  ⟨header_stored (s := s) (vs := []) (by simp [freshPacket_eq]),
   fun a ha => readPkt_storeBytes_after (a := 0) (vs := hdrBytes h) (by simp [freshPacket_eq]) (by simp [freshPacket_eq])
     (by simpa using ha)⟩

/-! ### Fields of a header (R50, R51) -/

@[simp] theorem hdrSeq_setSeq (h : Header) (v : Word) : hdrSeq (setSeq h v) = v := by
  simp only [hdrSeq, setSeq]
  ext i hi
  simp only [BitVec.getElem_append, BitVec.getElem_extractLsb']
  split
  · simp [BitVec.getLsbD_eq_getElem (show i < 16 by omega)]
  · simp [show 8 + (i - 8) = i by omega, BitVec.getLsbD_eq_getElem (show i < 16 by omega)]

@[simp] theorem hdrAck_setAck (h : Header) (v : Word) : hdrAck (setAck h v) = v := hdrSeq_setSeq ⟨h.ackLo, h.ackHi, 0, 0, 0⟩ v

@[simp] theorem hdrAck_setSeq (h : Header) (v : Word) : hdrAck (setSeq h v) = hdrAck h := rfl
@[simp] theorem hdrSeq_setAck (h : Header) (v : Word) : hdrSeq (setAck h v) = hdrSeq h := rfl
@[simp] theorem hdrSeq_setFlags (h : Header) (v : Byte) : hdrSeq (setFlags h v) = hdrSeq h := rfl
@[simp] theorem hdrAck_setFlags (h : Header) (v : Byte) : hdrAck (setFlags h v) = hdrAck h := rfl
@[simp] theorem setSeq_flags (h : Header) (v : Word) : (setSeq h v).flags = h.flags := rfl
@[simp] theorem setAck_flags (h : Header) (v : Word) : (setAck h v).flags = h.flags := rfl
@[simp] theorem setFlags_flags (h : Header) (v : Byte) : (setFlags h v).flags = v := rfl

end Sys2Proof.Machine
end

