-- ==== Sys2Proof/Laws/PerInstr.lean ====
section
/-! SUPPORT. Per-command lemmas: the family RoundTrip says that decoding a command's encoding gives the command back. -/

namespace Sys2Proof.Laws.RoundTrip

/-- Decoding the encoding of `i` gives `i`. -/
def Statement (i : Instr) : Prop := decode (encode i) = .ok i

theorem nop : Statement (.nop) := by
  simp only [Statement, encode, decode, opcode_toNat (opcodeField_encodeN _)]
  exact decodeN_encodeN _ _

theorem encSeq (imm : Word) : Statement (.encSeq imm) := by
  simp only [Statement, encode, decode, opcode_toNat (opcodeField_encodeI _ _)]
  exact decodeI_encodeI _ _ _

theorem decSeq : Statement (.decSeq) := by
  simp only [Statement, encode, decode, opcode_toNat (opcodeField_encodeN _)]
  exact decodeN_encodeN _ _

theorem encAck (imm : Word) : Statement (.encAck imm) := by
  simp only [Statement, encode, decode, opcode_toNat (opcodeField_encodeI _ _)]
  exact decodeI_encodeI _ _ _

theorem decAck : Statement (.decAck) := by
  simp only [Statement, encode, decode, opcode_toNat (opcodeField_encodeN _)]
  exact decodeN_encodeN _ _

theorem setFlag (mask : Byte) : Statement (.setFlag mask) := by
  simp only [Statement, encode, decode, opcode_toNat (opcodeField_encodeM _ _)]
  exact decodeM_encodeM _ _ _

theorem clrFlag (mask : Byte) : Statement (.clrFlag mask) := by
  simp only [Statement, encode, decode, opcode_toNat (opcodeField_encodeM _ _)]
  exact decodeM_encodeM _ _ _

theorem hasFlag (mask : Byte) : Statement (.hasFlag mask) := by
  simp only [Statement, encode, decode, opcode_toNat (opcodeField_encodeM _ _)]
  exact decodeM_encodeM _ _ _

theorem clrHdr : Statement (.clrHdr) := by
  simp only [Statement, encode, decode, opcode_toNat (opcodeField_encodeN _)]
  exact decodeN_encodeN _ _

theorem decFlags : Statement (.decFlags) := by
  simp only [Statement, encode, decode, opcode_toNat (opcodeField_encodeN _)]
  exact decodeN_encodeN _ _

theorem assemble : Statement (.assemble) := by
  simp only [Statement, encode, decode, opcode_toNat (opcodeField_encodeN _)]
  exact decodeN_encodeN _ _

theorem split : Statement (.split) := by
  simp only [Statement, encode, decode, opcode_toNat (opcodeField_encodeN _)]
  exact decodeN_encodeN _ _

theorem wrPkt (idx : Word) (val : Byte) : Statement (.wrPkt idx val) := by
  simp only [Statement, encode, decode, opcode_toNat (opcodeField_encodeB _ _ _)]
  exact decodeB_encodeB _ _ _ _

theorem rdPkt (idx : Word) : Statement (.rdPkt idx) := by
  simp only [Statement, encode, decode, opcode_toNat (opcodeField_encodeX _ _)]
  exact decodeX_encodeX _ _ _

theorem wrData (idx : Word) (val : Byte) : Statement (.wrData idx val) := by
  simp only [Statement, encode, decode, opcode_toNat (opcodeField_encodeB _ _ _)]
  exact decodeB_encodeB _ _ _ _

theorem rdData (idx : Word) : Statement (.rdData idx) := by
  simp only [Statement, encode, decode, opcode_toNat (opcodeField_encodeX _ _)]
  exact decodeX_encodeX _ _ _

theorem setPlen (imm : Word) : Statement (.setPlen imm) := by
  simp only [Statement, encode, decode, opcode_toNat (opcodeField_encodeI _ _)]
  exact decodeI_encodeI _ _ _

theorem getPlen : Statement (.getPlen) := by
  simp only [Statement, encode, decode, opcode_toNat (opcodeField_encodeN _)]
  exact decodeN_encodeN _ _

theorem setDlen (imm : Word) : Statement (.setDlen imm) := by
  simp only [Statement, encode, decode, opcode_toNat (opcodeField_encodeI _ _)]
  exact decodeI_encodeI _ _ _

theorem getDlen : Statement (.getDlen) := by
  simp only [Statement, encode, decode, opcode_toNat (opcodeField_encodeN _)]
  exact decodeN_encodeN _ _

theorem buildConnReq : Statement (.buildConnReq) := by
  simp only [Statement, encode, decode, opcode_toNat (opcodeField_encodeN _)]
  exact decodeN_encodeN _ _

theorem buildDiscReq : Statement (.buildDiscReq) := by
  simp only [Statement, encode, decode, opcode_toNat (opcodeField_encodeN _)]
  exact decodeN_encodeN _ _

theorem buildData : Statement (.buildData) := by
  simp only [Statement, encode, decode, opcode_toNat (opcodeField_encodeN _)]
  exact decodeN_encodeN _ _

theorem buildClientAck : Statement (.buildClientAck) := by
  simp only [Statement, encode, decode, opcode_toNat (opcodeField_encodeN _)]
  exact decodeN_encodeN _ _

theorem buildServerAck : Statement (.buildServerAck) := by
  simp only [Statement, encode, decode, opcode_toNat (opcodeField_encodeN _)]
  exact decodeN_encodeN _ _

theorem buildCloseAck : Statement (.buildCloseAck) := by
  simp only [Statement, encode, decode, opcode_toNat (opcodeField_encodeN _)]
  exact decodeN_encodeN _ _

theorem vConnReq : Statement (.vConnReq) := by
  simp only [Statement, encode, decode, opcode_toNat (opcodeField_encodeN _)]
  exact decodeN_encodeN _ _

theorem vClientAck : Statement (.vClientAck) := by
  simp only [Statement, encode, decode, opcode_toNat (opcodeField_encodeN _)]
  exact decodeN_encodeN _ _

theorem vServerAck : Statement (.vServerAck) := by
  simp only [Statement, encode, decode, opcode_toNat (opcodeField_encodeN _)]
  exact decodeN_encodeN _ _

theorem vDiscReq : Statement (.vDiscReq) := by
  simp only [Statement, encode, decode, opcode_toNat (opcodeField_encodeN _)]
  exact decodeN_encodeN _ _

theorem captureOrig : Statement (.captureOrig) := by
  simp only [Statement, encode, decode, opcode_toNat (opcodeField_encodeN _)]
  exact decodeN_encodeN _ _

theorem cConnect : Statement (.cConnect) := by
  simp only [Statement, encode, decode, opcode_toNat (opcodeField_encodeN _)]
  exact decodeN_encodeN _ _

theorem cRecv : Statement (.cRecv) := by
  simp only [Statement, encode, decode, opcode_toNat (opcodeField_encodeN _)]
  exact decodeN_encodeN _ _

theorem cSend : Statement (.cSend) := by
  simp only [Statement, encode, decode, opcode_toNat (opcodeField_encodeN _)]
  exact decodeN_encodeN _ _

theorem cClose : Statement (.cClose) := by
  simp only [Statement, encode, decode, opcode_toNat (opcodeField_encodeN _)]
  exact decodeN_encodeN _ _

theorem sRecv : Statement (.sRecv) := by
  simp only [Statement, encode, decode, opcode_toNat (opcodeField_encodeN _)]
  exact decodeN_encodeN _ _

theorem abort : Statement (.abort) := by
  simp only [Statement, encode, decode, opcode_toNat (opcodeField_encodeN _)]
  exact decodeN_encodeN _ _

end Sys2Proof.Laws.RoundTrip
end

