-- ==== Sys2Proof/Tests/Slice0.lean ====
section
/-! SUPPORT. Small tests of one step, of the decoder and of the assembler, with their expected results from the spec's
rules and 95_test_vectors.md (vector ids as there), and for every obligation with hypotheses a state that meets them. -/

namespace Sys2Proof.Tests

open Sys2Proof Sys2Proof.Machine

/-! ### Helpers -/

/-- A field of the next state. -/
def after {α : Type} (r : Result) (f : State → α) : Option α :=
  match r with
  | .next t => some (f t)
  | .fault _ => none
  | .refused _ => none

/-- The reset state with a header. -/
def withHdr (h : Header) : State := { State.reset with hdr := h }

/-- The reset state with a flags byte. -/
def withFlags (f : Byte) : State := withHdr ⟨0, 0, 0, 0, f⟩

/-- The reset state with a payload. -/
def withPacket (bs : List Byte) : State :=
  { State.reset with pkt := storeBytes [] 0 bs, plen := BitVec.ofNat 16 bs.length }

/-- The reset state with a data segment. -/
def withSegment (bs : List Byte) : State :=
  { State.reset with data := storeBytes [] 0 bs, dlen := BitVec.ofNat 16 bs.length }

/-- The same state in another connection state. -/
def inState (c : CState) (s : State) : State := { s with cstate := c }

/-- The same state with another RND level. -/
def drawing (r : Word) (s : State) : State := { s with rnd := r }

/-- A halted block. -/
def halted : State := { State.reset with fault := true, err := .malformedHeader }

/-- The command a word decodes to. -/
def reads (w : CmdWord) : Option Instr := (decode w).toOption

/-- The first `n` bytes of PKT. -/
def head (n : Nat) (s : State) : List Byte := bytesFrom (readPkt s) 0 n

/-! ### The decoder: one word a command, written out from R71 and R76 -/

theorem test_decode_codec :
    reads 0b00000000000000000000000000000000#32 = some .nop ∧
    reads 0b00010000000000001010101111001101#32 = some (.encSeq 0xABCD#16) ∧
    reads 0b00010001000000000000000000000000#32 = some .decSeq ∧
    reads 0b00010010000000000000000100000000#32 = some (.encAck 0x0100#16) ∧
    reads 0b00010011000000000000000000000000#32 = some .decAck ∧
    reads 0b00010100000000000000000010000001#32 = some (.setFlag 0x81#8) ∧
    reads 0b00010101000000000000000010000000#32 = some (.clrFlag 0x80#8) ∧
    reads 0b00010110000000000000000000001000#32 = some (.hasFlag 0x08#8) ∧
    reads 0b00010111000000000000000000000000#32 = some .clrHdr ∧
    reads 0b00011000000000000000000000000000#32 = some .decFlags := by decide

theorem test_decode_framing :
    reads 0b00100000000000000000000000000000#32 = some .assemble ∧
    reads 0b00100001000000000000000000000000#32 = some .split ∧
    reads 0b00100010000000010000001000000011#32 = some (.wrPkt 0x0102#16 0x03#8) ∧
    reads 0b00100011100000000000000100000000#32 = some (.rdPkt 0x8001#16) ∧
    reads 0b00100100000000010000001000000011#32 = some (.wrData 0x0102#16 0x03#8) ∧
    reads 0b00100101100000000000000100000000#32 = some (.rdData 0x8001#16) ∧
    reads 0b00100110000000000000000001000000#32 = some (.setPlen 64#16) ∧
    reads 0b00100111000000000000000000000000#32 = some .getPlen ∧
    reads 0b00101000000000000000000000111011#32 = some (.setDlen 59#16) ∧
    reads 0b00101001000000000000000000000000#32 = some .getDlen := by decide

theorem test_decode_builders :
    reads 0b00110000000000000000000000000000#32 = some .buildConnReq ∧
    reads 0b00110001000000000000000000000000#32 = some .buildDiscReq ∧
    reads 0b00110010000000000000000000000000#32 = some .buildData ∧
    reads 0b00110011000000000000000000000000#32 = some .buildClientAck ∧
    reads 0b00110100000000000000000000000000#32 = some .buildServerAck ∧
    reads 0b00110101000000000000000000000000#32 = some .buildCloseAck := by decide

theorem test_decode_connection :
    reads 0b01000000000000000000000000000000#32 = some .vConnReq ∧
    reads 0b01000001000000000000000000000000#32 = some .vClientAck ∧
    reads 0b01000010000000000000000000000000#32 = some .vServerAck ∧
    reads 0b01000011000000000000000000000000#32 = some .vDiscReq ∧
    reads 0b01000100000000000000000000000000#32 = some .captureOrig ∧
    reads 0b01010000000000000000000000000000#32 = some .cConnect ∧
    reads 0b01010001000000000000000000000000#32 = some .cRecv ∧
    reads 0b01010010000000000000000000000000#32 = some .cSend ∧
    reads 0b01010011000000000000000000000000#32 = some .cClose ∧
    reads 0b01011000000000000000000000000000#32 = some .sRecv ∧
    reads 0b01011111000000000000000000000000#32 = some .abort := by decide

/-- The numbering of spec/opcode_table.json: one 32-bit word. -/
theorem test_decodeTableWord : decodeTableWord 32 0x220004A0 = some (.wrPkt 4#16 0xA0#8) ∧
    decodeTableWord 32 0x01000000 = none := by decide

/-- The words the opcode map does not name are refused by name: E2b, E2c, C12, C13, C14, F6. -/
theorem test_decode_refuses :
    reads 0x01000000#32 = none ∧ reads 0xFF000000#32 = none ∧
    reads 0x10010000#32 = none ∧ reads 0x14000100#32 = none ∧
    reads 0x11000001#32 = none ∧ reads 0x23000401#32 = none := by decide

/-! ### Well-formedness: each check refuses an ill-formed word -/

theorem test_wf_no_such_opcode : legalWord 0x01000000#32 = false ∧ legalWord 0xFF000000#32 = false := by decide
theorem test_wf_format_n : legalWord 0x11000001#32 = false ∧ legalWord 0x11800000#32 = false := by decide
theorem test_wf_format_i : legalWord 0x10010000#32 = false ∧ legalWord 0x1000FFFF#32 = true := by decide
theorem test_wf_format_m : legalWord 0x14000100#32 = false ∧ legalWord 0x140000FF#32 = true := by decide
theorem test_wf_format_b : legalWord 0x22FFFFFF#32 = true := by decide
theorem test_wf_format_x : legalWord 0x23000401#32 = false ∧ legalWord 0x23FFFF00#32 = true := by decide
theorem test_wf_pseudo : pseudoWellFormed 1 (.deliver [0, 0, 0, 0, 0, 0, 0]) = false ∧
    pseudoWellFormed 1 (.deliver [0, 0, 0, 0, 0, 0]) = true ∧ pseudoWellFormed 1 (.loadData [0, 0]) = false ∧
    pseudoWellFormed 1 (.loadData [0]) = true := by decide

/-! ### One step a command -/

/-- E1: after C_CONNECT, NOP gives STATUS 0x0001. -/
theorem test_nop : after (runWord 0x00000000#32 { inState .cSynSent State.reset with txv := true }) statusPort
    = some 0x0001#16 := by decide

/-- C2. -/
theorem test_encSeq : after (runWord 0x10000000#32 (withHdr ⟨0x34, 0x12, 0xEF, 0xBE, 0xA0⟩)) (·.hdr)
    = some ⟨0x00, 0x00, 0xEF, 0xBE, 0xA0⟩ := by decide

/-- R90's example. -/
theorem test_encSeq_low_byte_first : after (runWord 0x10001234#32 State.reset) (·.hdr)
    = some ⟨0x34, 0x12, 0x00, 0x00, 0x00⟩ := by decide

/-- C3: unsigned. -/
theorem test_decSeq : after (runWord 0x11000000#32 (withHdr ⟨0xFF, 0x80, 0, 0, 0⟩)) resPort = some 0x80FF#16 := by decide

/-- C4. -/
theorem test_encAck : after (runWord 0x12000100#32 State.reset) (·.hdr) = some ⟨0, 0, 0x00, 0x01, 0⟩ := by decide

/-- R93's example. -/
theorem test_decAck : after (runWord 0x13000000#32 (withHdr ⟨0x34, 0x12, 0xEF, 0xBE, 0x00⟩)) resPort
    = some 0xBEEF#16 := by decide

/-- R94's example, and C6b. -/
theorem test_setFlag : after (runWord 0x14000020#32 (withFlags 0x80)) (·.hdr.flags) = some 0xA0#8 ∧
    after (runWord 0x140000FF#32 (withFlags 0x5A)) (·.hdr.flags) = some 0xFF#8 := by decide

/-- R95's example, and C8. -/
theorem test_clrFlag : after (runWord 0x15000080#32 (withFlags 0xA0)) (·.hdr.flags) = some 0x20#8 ∧
    after (runWord 0x150000FF#32 (withFlags 0xFF)) (·.hdr.flags) = some 0x00#8 := by decide

/-- C9a, C9b: any bit, not all. -/
theorem test_hasFlag_any : after (runWord 0x16000000#32 (withFlags 0xFF)) resPort = some 0#16 ∧
    after (runWord 0x16000088#32 (withFlags 0x08)) resPort = some 1#16 := by decide

/-- C9c, C9d, C9e. -/
theorem test_hasFlag_storage : after (runWord 0x16000040#32 (withFlags 0x40)) resPort = some 1#16 ∧
    after (runWord 0x16000004#32 (withFlags 0x07)) resPort = some 1#16 ∧
    after (runWord 0x16000028#32 (withFlags 0x80)) resPort = some 0#16 := by decide

/-- C11. -/
theorem test_clrHdr : after (runWord 0x17000000#32 (withHdr ⟨0x34, 0x12, 0xEF, 0xBE, 0xA0⟩)) (·.hdr)
    = some ⟨0, 0, 0, 0, 0⟩ := by decide

/-- C10. -/
theorem test_decFlags : after (runWord 0x18000000#32 (withFlags 0xFF)) resPort = some 0x00FF#16 := by decide

/-- F11: bytes beyond the new payload are kept. -/
theorem test_assemble :
    after (runWord 0x20000000#32
      { withPacket [9, 9, 9, 9, 9, 7, 7, 7, 7] with
        hdr := ⟨1, 0, 2, 0, 3⟩, data := [(0, 0x55)], dlen := 1 }) (fun t => (head 9 t, t.plen))
      = some ([1, 0, 2, 0, 3, 0x55, 7, 7, 7], 6#16) := by decide

/-- F1: the largest data segment fits. -/
theorem test_assemble_full : after (runWord 0x20000000#32 { State.reset with dlen := 59 }) (·.plen) = some 64#16 := by decide

/-- R101's example. -/
theorem test_split : after (runWord 0x21000000#32 (withPacket [0, 0, 0, 0, 0x10, 0x68, 0x69]))
    (fun t => (t.hdr, dataSegment t)) = some (⟨0, 0, 0, 0, 0x10⟩, [0x68, 0x69]) := by decide

/-- F3: a short payload. -/
theorem test_split_short : after (runWord 0x21000000#32 { State.reset with plen := 4 }) (fun t => (statusPort t, t.dlen))
    = some (0x0050#16, 0#16) := by decide

/-- F5a, F5b: the last byte of PKT, and the one past it. -/
theorem test_wrPkt : after (runWord 0x22003F55#32 State.reset) (fun t => (readPkt t 63, statusPort t))
    = some (0x55#8, 0x0000#16) ∧ after (runWord 0x22004055#32 State.reset) statusPort = some 0x0070#16 := by decide

/-- R103's example, and F10. -/
theorem test_rdPkt : after (runWord 0x23000400#32 (withPacket [0, 0, 0, 0, 0xA0])) resPort = some 0x00A0#16 ∧
    after (runWord 0x23FFFF00#32 State.reset) statusPort = some 0x0070#16 := by decide

/-- R104's example, and F9: with MAX_PKT = 5, DATA has no bytes. -/
theorem test_wrData : after (runWord 0x24000068#32 State.reset) (readData · 0) = some 0x68#8 ∧
    after (runWord 0x24000000#32 { State.reset with maxData := 0 }) statusPort = some 0x0070#16 := by decide

/-- F14. -/
theorem test_rdData : after (runWord 0x25000100#32 (withSegment [0x68, 0x69])) resPort = some 0x0069#16 := by decide

/-- F7a, F7b. -/
theorem test_setPlen : after (runWord 0x26000040#32 State.reset) (·.plen) = some 64#16 ∧
    after (runWord 0x26000041#32 State.reset) statusPort = some 0x0070#16 := by decide

/-- F12. -/
theorem test_getPlen : after (runWord 0x27000000#32 { State.reset with plen := 3 }) resPort = some 3#16 := by decide

/-- F8a, F8b. -/
theorem test_setDlen : after (runWord 0x2800003B#32 State.reset) (·.dlen) = some 59#16 ∧
    after (runWord 0x2800003C#32 State.reset) statusPort = some 0x0070#16 := by decide

/-- R109. -/
theorem test_getDlen : after (runWord 0x29000000#32 (withSegment [0x68, 0x69])) resPort = some 2#16 := by decide

/-- B1c, and R120's example: bit 15 of RND is ignored. -/
theorem test_buildConnReq :
    after (runWord 0x30000000#32 (drawing 0xFFFF State.reset)) (fun t => (head 5 t, t.origSeq))
      = some ([0xFF, 0x7F, 0, 0, 0x80], 0x7FFF#16) ∧
    after (runWord 0x30000000#32 (drawing 0x9ABC State.reset)) (fun t => (head 5 t, t.origSeq))
      = some ([0xBC, 0x1A, 0, 0, 0x80], 0x1ABC#16) := by decide

/-- B2. -/
theorem test_buildDiscReq : after (runWord 0x31000000#32 (withSegment [1, 2, 3])) (fun t => (head 5 t, t.plen, t.dlen))
    = some ([0, 0, 0, 0, 0x08], 5#16, 3#16) := by decide

/-- R122's example. -/
theorem test_buildData : after (runWord 0x32000000#32 (withSegment [0x68, 0x69])) (fun t => (head 7 t, t.plen))
    = some ([0, 0, 0, 0, 0x10, 0x68, 0x69], 7#16) := by decide

/-- B4 and B7: the increment wraps; the flags that are not SYN or ACK pass through. -/
theorem test_buildClientAck :
    after (runWord 0x33000000#32 (withPacket [0xFF, 0xFF, 0, 0, 0xA0])) (head 5) = some [0, 0, 0, 0, 0x20] ∧
    after (runWord 0x33000000#32 (withPacket [0, 0, 0, 0, 0x5F])) (head 5) = some [0, 0, 1, 0, 0x7F] := by decide

/-- B6: the data of the packet is kept. -/
theorem test_buildClientAck_keeps :
    after (runWord 0x33000000#32 (withPacket [0x10, 0, 0, 0, 0x80, 0x68, 0x69])) (fun t => (head 7 t, t.plen))
      = some ([0, 0, 0x11, 0, 0x20, 0x68, 0x69], 7#16) := by decide

/-- B8. -/
theorem test_buildServerAck :
    after (runWord 0x34000000#32 (drawing 0x1234 (withPacket [0, 0, 0xFF, 0xFF, 0x80]))) (head 5)
      = some [0x34, 0x12, 0, 0, 0xA0] := by decide

/-- B11: nothing is written. -/
theorem test_buildServerAck_short :
    after (runWord 0x34000000#32 (drawing 0x1234 (withPacket [1, 2, 3, 4]))) (fun t => (head 4 t, statusPort t, t.hdr))
      = some ([1, 2, 3, 4], 0x0050#16, emptyHdr) := by decide

/-- B10. -/
theorem test_buildCloseAck :
    after (runWord 0x35000000#32 (drawing 0xFFFF (withPacket [0, 0, 5, 0, 0x28]))) (head 5)
      = some [0xFF, 0xFF, 6, 0, 0x28] := by decide

/-- V1a, V1b. -/
theorem test_vConnReq : after (runWord 0x40000000#32 (withFlags 0xA0)) resPort = some 1#16 ∧
    after (runWord 0x40000000#32 (withFlags 0x7F)) resPort = some 0#16 := by decide

/-- V2a, V2b. -/
theorem test_vClientAck : after (runWord 0x41000000#32 (withFlags 0x80)) resPort = some 0#16 ∧
    after (runWord 0x41000000#32 (withFlags 0x28)) resPort = some 1#16 := by decide

/-- V3: compared modulo 2^16. -/
theorem test_vServerAck_wraps :
    after (runWord 0x42000000#32 { withFlags 0xA0 with origSeq := 0xFFFF }) resPort = some 1#16 := by decide

/-- V4a, V4b, V5a. -/
theorem test_vServerAck_false :
    after (runWord 0x42000000#32 { withHdr ⟨0, 0, 0xBD, 0x1A, 0x20⟩ with origSeq := 0x1ABC }) resPort = some 0#16 ∧
    after (runWord 0x42000000#32 { withHdr ⟨0, 0, 0xBD, 0x1A, 0x80⟩ with origSeq := 0x1ABC }) resPort = some 0#16 ∧
    after (runWord 0x42000000#32 { withHdr ⟨1, 0x80, 1, 0, 0xA0⟩ with origSeq := 0x1ABC }) resPort = some 0#16 := by decide

/-- V6a, V6b. -/
theorem test_vDiscReq : after (runWord 0x43000000#32 (withFlags 0x28)) resPort = some 1#16 ∧
    after (runWord 0x43000000#32 (withFlags 0x20)) resPort = some 0#16 := by decide

/-- V7: RES is unchanged. -/
theorem test_captureOrig :
    after (runWord 0x44000000#32 { withHdr ⟨0xFF, 0xFF, 0, 0, 0⟩ with res := 0x0055 }) (fun t => (t.origSeq, t.res))
      = some (0xFFFF#16, 0x0055#16) := by decide

/-- P2 step 1. -/
theorem test_cConnect : after (runWord 0x50000000#32 (drawing 0x9ABC State.reset)) (fun t => (head 5 t, t.plen, statusPort t))
    = some ([0xBC, 0x1A, 0, 0, 0x80], 5#16, 0x0009#16) := by decide

/-- S7: TXV is kept by the fault. -/
theorem test_cConnect_twice : after (runWord 0x50000000#32 { inState .cSynSent State.reset with txv := true }) statusPort
    = some 0x0099#16 := by decide

/-- P2 step 4. -/
theorem test_cRecv_handshake :
    after (runWord 0x51000000#32 (inState .cSynSent (withPacket [1, 0x80, 1, 0, 0xA0]))) (fun t => (head 5 t, statusPort t))
      = some ([0, 0, 2, 0x80, 0x20], 0x000A#16) := by decide

/-- P2 step 8: the echo. -/
theorem test_cRecv_echo :
    after (runWord 0x51000000#32 (inState .cEchoWait (withPacket [0, 0, 0, 0, 0x10, 0x68, 0x69])))
      (fun t => (dataSegment t, t.res, statusPort t)) = some ([0x68, 0x69], 2#16, 0x0002#16) := by decide

/-- P2 step 6. -/
theorem test_cSend :
    after (runWord 0x52000000#32 (inState .cEstablished (withSegment [0x68, 0x69]))) (fun t => (head 7 t, t.plen, statusPort t))
      = some ([0, 0, 0, 0, 0x10, 0x68, 0x69], 7#16, 0x000B#16) := by decide

/-- P2 step 12: TXV is kept. -/
theorem test_cSend_closed : after (runWord 0x52000000#32 { inState .closed State.reset with txv := true }) statusPort
    = some 0x009F#16 := by decide

/-- P2 step 9. -/
theorem test_cClose : after (runWord 0x53000000#32 (inState .cEstablished State.reset)) (fun t => (head 5 t, statusPort t))
    = some ([0, 0, 0, 0, 0x08], 0x000C#16) := by decide

/-- S12. -/
theorem test_cClose_waiting : after (runWord 0x53000000#32 (inState .cEchoWait State.reset)) statusPort
    = some 0x0093#16 := by decide

/-- P3 step 1. -/
theorem test_sRecv_request :
    after (runWord 0x58000000#32 (drawing 0x8001 (withPacket [0xBC, 0x1A, 0, 0, 0x80]))) (fun t => (head 5 t, statusPort t))
      = some ([1, 0x80, 1, 0, 0xA0], 0x000D#16) := by decide

/-- S5: FIN and PSH take the FIN branch. -/
theorem test_sRecv_fin :
    after (runWord 0x58000000#32 (drawing 0x00FF (inState .sEstablished (withPacket [0, 0, 7, 0, 0x18]))))
      (fun t => (head 5 t, statusPort t)) = some ([0xFF, 0, 8, 0, 0x18], 0x000F#16) := by decide

/-- S10a, S10b. -/
theorem test_abort : after (runWord 0x5F000000#32 State.reset) statusPort = some 0x0007#16 ∧
    after (runWord 0x5F000000#32 (inState .closed State.reset)) statusPort = some 0x0007#16 := by decide

/-! ### Faults, reset, steps -/

/-- S13a, S13b: the order of the checks. -/
theorem test_check_order : after (runWord 0x51000001#32 State.reset) statusPort = some 0x0030#16 ∧
    after (runWord 0x51000000#32 State.reset) statusPort = some 0x0090#16 := by decide

/-- E4: a fault keeps TXV and CSTATE. -/
theorem test_fault_keeps : after (runWord 0x01000000#32 { inState .cSynSent State.reset with txv := true }) statusPort
    = some 0x0039#16 := by decide

/-- E3: a halted block ignores the command. -/
theorem test_halted : after (runWord 0x10001234#32 halted) (fun t => (t.hdr, statusPort t))
    = some (emptyHdr, 0x0050#16) := by decide

/-- E5: reset leaves the fault. -/
theorem test_reset : after (step { halted with pending := [⟨true, 0x10001234, 0⟩] }) (fun t => (t.hdr, statusPort t))
    = some (emptyHdr, 0x0000#16) := by decide

/-- A command presented runs in one step, and is then no longer pending. -/
theorem test_step : after (step { State.reset with pending := [⟨false, 0x50000000, 0x9ABC⟩, ⟨false, 0, 0⟩] })
    (fun t => (t.origSeq, t.pending.length)) = some (0x1ABC#16, 1) := by decide

/-- The host's question: the word placed where the step takes its next command is what runs. -/
theorem test_withFetchWord : after (step (State.reset.withFetchWord 32 0x14000080)) (·.hdr.flags) = some 0x80#8 := by decide

/-! ### The assembler: the examples of R81, and errors of R82 -/

theorem test_asm : assembleLine 59 "ENC_SEQ #0x1234" = some [0x10001234#32] ∧
    assembleLine 59 "SET_FLAG SYN|ACK" = some [0x140000A0#32] ∧ assembleLine 59 "WR_PKT 4, #0xA0" = some [0x220004A0#32] ∧
    assembleLine 59 "RD_PKT 4 ; a comment" = some [0x23000400#32] ∧ assembleLine 59 "SPLIT" = some [0x21000000#32] := by
  decide

theorem test_asm_errors : assembleLine 59 "SET_FLAG URG" = none ∧ assembleLine 59 "SPLIT 1" = none ∧
    assembleLine 59 "ENC_SEQ #65536" = none ∧ assembleLine 59 "HALT" = none := by decide

/-- R83. -/
theorem test_asm_pseudo : assembleLine 59 "LOAD_DATA 0x68, 0x69" = some [0x28000002#32, 0x24000068#32, 0x24000169#32] ∧
    assembleLine 59 "DELIVER 0xBC" = some [0x26000001#32, 0x220000BC#32] ∧
    assembleLine 59 "HDR 0x1ABC, 0, 0" = some [0x17000000#32, 0x10001ABC#32, 0x12000000#32, 0x14000000#32] ∧
    assembleLine 0 "LOAD_DATA 0x68" = none := by decide

/-! ### States that meet the hypotheses of the obligations -/

/-- A 5-byte payload, the shortest that holds a header. -/
def packet5 : State := withPacket [0xBC, 0x1A, 0, 0, 0x80]

/-- A 4-byte payload, the longest that holds none. -/
def packet4 : State := withPacket [0xBC, 0x1A, 0, 0]

/-- A disconnect request. -/
def finPacket : State := withPacket [0, 0, 0, 0, 0x08]

/-- PKT and DATA full: PLEN = MAX_PKT = 64 and DLEN = MAX_DATA = 59. -/
def full : State := { State.reset with plen := 64, dlen := 59 }

/-- The least MAX_PKT, 5: DATA has no bytes. -/
def smallest : State := { packet5 with maxData := 0 }

theorem test_inv_reset : State.reset.Inv := by constructor <;> decide
theorem test_inv_packet5 : packet5.Inv := by constructor <;> decide
theorem test_inv_packet4 : packet4.Inv := by constructor <;> decide
theorem test_inv_full : full.Inv := by constructor <;> decide
theorem test_inv_smallest : smallest.Inv := by constructor <;> decide
theorem test_inv_halted : halted.Inv := by constructor <;> decide
theorem test_inv_states (c : CState) : (inState c packet5).Inv ∧ (inState c packet4).Inv ∧ (inState c full).Inv := by
  obtain ⟨a1, a2, a3, a4, a5, a6, a7⟩ := test_inv_packet5
  obtain ⟨b1, b2, b3, b4, b5, b6, b7⟩ := test_inv_packet4
  obtain ⟨c1, c2, c3, c4, c5, c6, c7⟩ := test_inv_full
  exact ⟨⟨a1, a2, a3, a4, a5, a6, a7⟩, ⟨b1, b2, b3, b4, b5, b6, b7⟩, ⟨c1, c2, c3, c4, c5, c6, c7⟩⟩

/-- The words of a format's two clauses: operand bits at their ends, and a must-be-zero bit at each end. -/
theorem test_witness_RunsAs :
    (0x11000000#32).extractLsb' 24 8 = 0x11#8 ∧ (0x11000000#32).extractLsb' 0 24 = 0#24 ∧
    (0x11000001#32).extractLsb' 0 24 ≠ 0#24 ∧ (0x11800000#32).extractLsb' 0 24 ≠ 0#24 ∧
    (0x1000FFFF#32).extractLsb' 24 8 = 0x10#8 ∧ (0x1000FFFF#32).extractLsb' 16 8 = 0#8 ∧
    (0x10010000#32).extractLsb' 16 8 ≠ 0#8 ∧ (0x140000FF#32).extractLsb' 24 8 = 0x14#8 ∧
    (0x140000FF#32).extractLsb' 8 16 = 0#16 ∧ (0x14000100#32).extractLsb' 8 16 ≠ 0#16 ∧
    (0x22FFFFFF#32).extractLsb' 24 8 = 0x22#8 ∧ (0x23FFFF00#32).extractLsb' 24 8 = 0x23#8 ∧
    (0x23FFFF00#32).extractLsb' 0 8 = 0#8 ∧ (0x23000401#32).extractLsb' 0 8 ≠ 0#8 ∧ State.reset.fault = false := by decide

/-! The statements whose only hypothesis is a live block. -/

theorem test_witness_NopClearsOnlyTxv : packet5.fault = false := rfl
theorem test_witness_EncodeFieldsLittleEndian : packet5.fault = false := rfl
theorem test_witness_DecodeFieldsUnsigned : packet5.fault = false := rfl
theorem test_witness_SetAndClearFlagBits : packet5.fault = false := rfl
theorem test_witness_ClearHeaderMakesItEmpty : packet5.fault = false := rfl
theorem test_witness_ConnectionRequestIsBuilt : packet5.fault = false := rfl
theorem test_witness_DisconnectRequestIsBuilt : packet5.fault = false := rfl
theorem test_witness_FlagValidatorsTestOneBit : packet5.fault = false := rfl
theorem test_witness_CaptureOrigTakesTheSequenceNumber : packet5.fault = false := rfl
theorem test_witness_AbortClosesInEveryState : packet5.fault = false := rfl

/-- EncodeOfDecodeIsTheWord. -/
theorem test_witness_EncodeOfDecodeIsTheWord :
    reads 0x10001234#32 = some (.encSeq 0x1234#16) := by decide

/-- IllegalWordRaisesIllegalCommand: an opcode that is not in the map, and a must-be-zero bit. -/
theorem test_witness_IllegalWordRaisesIllegalCommand :
    legalWord 0x01000000#32 = false ∧ legalWord 0x11000001#32 = false ∧ State.reset.fault = false := by decide

/-- StepRunsTheDecodedCommand: a word that decodes, and one that does not. -/
theorem test_witness_StepRunsTheDecodedCommand :
    (∃ s : State, s.pending = ⟨false, 0x140000A0#32, 7#16⟩ :: [] ∧ decode 0x140000A0#32 = .ok (.setFlag 0xA0#8)) ∧
    ∃ s : State, s.pending = ⟨false, 0x01000000#32, 7#16⟩ :: [] ∧ reads 0x01000000#32 = none :=
  ⟨⟨{ State.reset with pending := [⟨false, 0x140000A0#32, 7#16⟩] }, rfl, rfl⟩,
    { State.reset with pending := [⟨false, 0x01000000#32, 7#16⟩] }, rfl, by decide⟩

/-- IdleBlockKeepsAllState. -/
theorem test_witness_IdleBlockKeepsAllState :
    State.reset.pending = [] ∧ halted.pending = [] := by decide

/-- ResetInputWins and ResetDrawsTheBuffersAfresh: a halted block too. -/
theorem test_witness_ResetInputWins :
    ∃ s : State, s.fault = true ∧ s.pending = ⟨true, 0x10001234#32, 7#16⟩ :: [] :=
  ⟨{ halted with pending := [⟨true, 0x10001234#32, 7#16⟩] }, rfl, rfl⟩

/-- StepKeepsInvariant and StepAlwaysCompletes: a state that is not the reset state, and a step that changes it. -/
theorem test_witness_StepKeepsInvariant :
    (inState .cEchoWait packet5).Inv ∧
    ∃ t, step { inState .cEchoWait packet5 with pending := [⟨false, 0x51000000, 0⟩] } = .next t ∧ t.hdr.seqLo = 0xBC#8 :=
  ⟨(test_inv_states _).1, _, rfl, by decide⟩

/-- HaltedBlockIgnoresEveryCommand: a word presented to a halted block, and a reset. -/
theorem test_witness_HaltedBlockIgnoresEveryCommand :
    ∃ s u : State, s.fault = true ∧ s.pending = ⟨false, 0x10001234#32, 7#16⟩ :: [] ∧ (∃ t, step s = .next t ∧ t.fault = true) ∧
      u.fault = true ∧ (∃ t, step u = .next t ∧ t.fault = false) :=
  ⟨{ halted with pending := [⟨false, 0x10001234#32, 7#16⟩] },
    { halted with pending := [⟨true, 0, 0⟩] }, rfl, rfl, ⟨_, rfl, rfl⟩, rfl, _, rfl, rfl⟩

/-- ErrorsFollowTheCheckOrder: a halted block, an illegal word, each other error, two of them at once, and none. -/
theorem test_witness_ErrorsFollowTheCheckOrder :
    halted.Inv ∧ halted.fault = true ∧ legalWord 0x51000001#32 = false ∧ reads 0x51000000#32 = some .cRecv ∧
    State.reset.Inv ∧ State.reset.fault = false ∧ expectedError .cSend State.reset = some .illegalState ∧
    expectedError .cRecv State.reset = some .illegalState ∧ expectedError (.wrPkt 64 0) State.reset = some .indexRange ∧
    expectedError .split State.reset = some .malformedHeader ∧ expectedError .sRecv State.reset = some .malformedHeader ∧
    expectedError (.wrPkt 63 0) State.reset = none :=
  ⟨test_inv_halted, by decide, by decide, by decide, test_inv_reset, by decide⟩

/-- FaultsArePrecise: a legal word and an illegal one. -/
theorem test_witness_FaultsArePrecise :
    State.reset.fault = false ∧ (∃ t, runWord 0x21000000#32 State.reset = .next t ∧ t.fault = true) ∧
    ∃ t, runWord 0x01000000#32 State.reset = .next t ∧ t.fault = true :=
  ⟨rfl, ⟨_, rfl, rfl⟩, _, rfl, rfl⟩

/-- TxvExactlyWhenASendIsAsked: a command that completes, with and without a send, and one that faults. -/
theorem test_witness_TxvExactlyWhenASendIsAsked :
    State.reset.fault = false ∧ (∃ t, exec .cConnect State.reset = .next t ∧ t.fault = false) ∧
    (∃ t, exec .nop State.reset = .next t ∧ t.fault = false) ∧ ∃ t, exec .cSend State.reset = .next t ∧ t.fault = true :=
  ⟨rfl, ⟨_, rfl, rfl⟩, ⟨_, rfl, rfl⟩, _, rfl, rfl⟩

/-- ConnectionFollowsTheTable: a transition, a command that faults in a state it accepts, and one in a state it does not. -/
theorem test_witness_ConnectionFollowsTheTable :
    packet5.fault = false ∧ (∃ t, exec .sRecv packet5 = .next t ∧ t.fault = false) ∧
    (∃ t, exec .sRecv packet4 = .next t ∧ t.fault = true) ∧ acceptedStates .cRecv = some [.cSynSent, .cEchoWait, .cClosing] ∧
    packet5.cstate ∉ [CState.cSynSent, .cEchoWait, .cClosing] :=
  ⟨rfl, ⟨_, rfl, rfl⟩, ⟨_, rfl, rfl⟩, by decide⟩

/-- ClosedIsTerminalAndRolesAreFixed: a closed block, a client and a server. -/
theorem test_witness_ClosedIsTerminalAndRolesAreFixed :
    (∃ t, runWord 0x5F000000#32 (inState .closed State.reset) = .next t) ∧
    (∃ t, runWord 0x51000000#32 (inState .cSynSent packet5) = .next t) ∧
    (∃ t, runWord 0x58000000#32 (inState .sSynRcvd packet5) = .next t) ∧ clientState .cSynSent = true ∧
    serverState .sSynRcvd = true :=
  ⟨⟨_, rfl⟩, ⟨_, rfl⟩, ⟨_, rfl⟩, by decide⟩

/-- ResAndOrigSeqChangeOnlyWhereNamed, BuffersChangeOnlyWhereNamed, CommandsKeepParameterAndInputs. -/
theorem test_witness_ResAndOrigSeqChangeOnlyWhereNamed :
    (∃ t, exec .clrHdr packet5 = .next t) ∧ writesRes .clrHdr .idle = false ∧ writesOrigSeq .clrHdr = false ∧
    writesPayload .clrHdr .idle false = false ∧ writesDataSegment .clrHdr .idle = false ∧
    (∃ t, exec .sRecv (inState .sEstablished packet5) = .next t) ∧ finInPkt packet5 = false ∧
    writesPayload .sRecv .sEstablished false = false :=
  ⟨⟨_, rfl⟩, by decide, by decide, by decide, by decide, ⟨_, rfl⟩, by decide⟩

/-- OnlyNamedCommandsSampleRnd. -/
theorem test_witness_OnlyNamedCommandsSampleRnd :
    readsRnd .cSend = false ∧ readsRnd .cRecv = false ∧ readsRnd .buildClientAck = false := by decide

/-- StatusWordIsComposed: a state for each connection state and each error. -/
theorem test_witness_StatusWordIsComposed :
    (∀ c, (inState c State.reset).cstate = c) ∧ ∀ e, ({ State.reset with err := e } : State).err = e :=
  ⟨fun _ => rfl, fun _ => rfl⟩

/-- FsmCommandsDoNotReadRes: a command that writes RES, and one that does not. -/
theorem test_witness_FsmCommandsDoNotReadRes :
    fsmCommand .cRecv = true ∧
    (∃ t, exec .cRecv (inState .cEchoWait packet5) = .next t ∧ t.fault = false ∧ writesRes .cRecv .cEchoWait = true) ∧
    ∃ t, exec .cRecv (inState .cSynSent packet5) = .next t ∧ writesRes .cRecv .cSynSent = false :=
  ⟨rfl, ⟨_, rfl, by decide⟩, _, rfl, by decide⟩

/-- HasFlagTestsAnyBit: one bit of a mask of two set, and none of them. -/
theorem test_witness_HasFlagTestsAnyBit :
    (withFlags 0x08).fault = false ∧ (∃ k, (withFlags 0x08).hdr.flags.getLsbD k = true ∧ (0x88#8).getLsbD k = true) ∧
    ∀ k, ¬ ((withFlags 0x08).hdr.flags.getLsbD k = true ∧ (0x00#8).getLsbD k = true) :=
  ⟨rfl, ⟨3, by decide⟩, fun k h => by simp at h⟩

/-- CodecLaws: two flag commands in a row, the flag clear before. -/
theorem test_witness_CodecLaws :
    (withFlags 0x20).fault = false ∧ (∃ t u, exec (.setFlag 0x80) (withFlags 0x20) = .next t ∧ exec (.clrFlag 0x80) t = .next u) ∧
    (withFlags 0x20).hdr.flags &&& 0x80#8 = 0#8 ∧ (∃ t, exec (.encSeq 1) (withFlags 0x20) = .next t) ∧
    (∃ t, exec (.encAck 1) (withFlags 0x20) = .next t) ∧ (0x80#8).getLsbD 5 = false :=
  ⟨rfl, ⟨_, _, rfl, rfl⟩, by decide, ⟨_, rfl⟩, ⟨_, rfl⟩, by decide⟩

/-- AssembleConcatenatesHeaderAndData and DataPacketIsBuilt: an empty data segment, and a full one. -/
theorem test_witness_AssembleConcatenatesHeaderAndData :
    State.reset.Inv ∧ State.reset.fault = false ∧ State.reset.dlen = 0#16 ∧ full.Inv ∧ full.fault = false ∧
    full.dlen.toNat = maxDataOf full :=
  ⟨test_inv_reset, rfl, rfl, test_inv_full, by decide⟩

/-- SplitSeparatesHeaderAndData and FramingRoundTrips: PLEN = 5, MAX_PKT and 4. -/
theorem test_witness_SplitSeparatesHeaderAndData :
    packet5.Inv ∧ packet5.fault = false ∧ packet5.plen.toNat = 5 ∧ full.Inv ∧ full.plen.toNat = maxPktOf full ∧
    packet4.Inv ∧ packet4.fault = false ∧ packet4.plen.toNat = 4 :=
  ⟨test_inv_packet5, rfl, rfl, test_inv_full, by decide, test_inv_packet4, rfl, rfl⟩

/-- ByteWritesChangeOneByte and ByteReadsGoToRes: the last index in range and the first out of range, and a DATA of no bytes. -/
theorem test_witness_ByteWritesChangeOneByte :
    State.reset.fault = false ∧ (63#16).toNat < maxPktOf State.reset ∧ maxPktOf State.reset ≤ (64#16).toNat ∧
    (58#16).toNat < maxDataOf State.reset ∧ maxDataOf State.reset ≤ (59#16).toNat ∧ maxDataOf smallest ≤ (0#16).toNat := by decide

/-- LengthsAreSetInRangeAndRead: the greatest length in range and the least out of range. -/
theorem test_witness_LengthsAreSetInRangeAndRead :
    State.reset.fault = false ∧ (64#16).toNat ≤ maxPktOf State.reset ∧ maxPktOf State.reset < (65#16).toNat ∧
    (59#16).toNat ≤ maxDataOf State.reset ∧ maxDataOf State.reset < (60#16).toNat := by decide

/-- MixedWidthAccessIsLittleEndian. -/
theorem test_witness_MixedWidthAccessIsLittleEndian :
    packet5.Inv ∧ packet5.fault = false ∧ 5 ≤ packet5.plen.toNat :=
  ⟨test_inv_packet5, by decide⟩

/-- ClientAckIsBuiltInPlace, ServerAckIsBuiltInPlace, CloseAckIsBuiltInPlace. -/
theorem test_witness_ClientAckIsBuiltInPlace :
    packet5.fault = false ∧ packet5.plen.toNat = 5 ∧ packet4.fault = false ∧ packet4.plen.toNat = 4 := by decide

/-- ServerAckValidatorComparesModulo: the wrap, and one flag missing. -/
theorem test_witness_ServerAckValidatorComparesModulo :
    ({ withFlags 0xA0 with origSeq := 0xFFFF } : State).fault = false ∧
    ((withFlags 0xA0).hdr.flags.getLsbD 7 = true ∧ (withFlags 0xA0).hdr.flags.getLsbD 5 = true ∧
      ((withFlags 0xA0).hdr.ackHi ++ (withFlags 0xA0).hdr.ackLo).toNat = ((0xFFFF#16).toNat + 1) % 65536) ∧
    ¬ ((withFlags 0x20).hdr.flags.getLsbD 7 = true) := by decide

/-- ClientConnects, and the other states of ClientSends and ClientCloses. -/
theorem test_witness_ClientConnects :
    State.reset.fault = false ∧ State.reset.cstate = .idle ∧ (inState .closed State.reset).cstate ≠ .idle := by decide

/-- ClientReceives: a state for each clause. -/
theorem test_witness_ClientReceives :
    (∀ c, (inState c packet5).Inv ∧ (inState c packet5).fault = false ∧ (inState c packet5).cstate = c ∧
      5 ≤ (inState c packet5).plen.toNat) ∧
    (inState .cClosing packet4).Inv ∧ (inState .cClosing packet4).plen.toNat < 5 ∧
    (inState .cClosing packet4).cstate ∈ [CState.cSynSent, .cEchoWait, .cClosing] ∧
    (inState .cEstablished packet5).cstate ∉ [CState.cSynSent, .cEchoWait, .cClosing] :=
  ⟨fun c => ⟨(test_inv_states c).1, rfl, rfl, (by decide : 5 ≤ packet5.plen.toNat)⟩, (test_inv_states _).2.1, by decide⟩

/-- ClientSends and ClientCloses: a full data segment. -/
theorem test_witness_ClientSends :
    (inState .cEstablished full).Inv ∧ (inState .cEstablished full).fault = false ∧
    (inState .cEstablished full).cstate = .cEstablished ∧ (inState .cEchoWait full).cstate ≠ .cEstablished :=
  ⟨(test_inv_states _).2.2, by decide⟩

/-- ServerReceives: a state for each clause. -/
theorem test_witness_ServerReceives :
    (∀ c, (inState c packet5).fault = false ∧ (inState c packet5).cstate = c ∧ 5 ≤ (inState c packet5).plen.toNat) ∧
    (inState .sEstablished finPacket).fault = false ∧ finInPkt (inState .sEstablished finPacket) = true ∧
    5 ≤ (inState .sEstablished finPacket).plen.toNat ∧ finInPkt (inState .sEstablished packet5) = false ∧
    (inState .closed packet5).cstate ∉ [CState.idle, .sSynRcvd, .sEstablished] ∧
    packet4.cstate ∈ [CState.idle, .sEstablished] ∧ packet4.plen.toNat < 5 :=
  ⟨fun c => ⟨rfl, rfl, (by decide : 5 ≤ packet5.plen.toNat)⟩, by decide⟩

/-- DeliverPlacesTheDatagram and LoadDataPlacesTheSegment: MAX_PKT bytes, MAX_DATA bytes, none. -/
theorem test_witness_DeliverPlacesTheDatagram :
    State.reset.fault = false ∧ (List.replicate 64 0x55#8).length ≤ maxPktOf State.reset ∧
    (List.replicate 59 0x55#8).length ≤ maxDataOf State.reset ∧ ([] : List Byte).length ≤ maxDataOf smallest := by decide

/-- HostReadsThePayloadOut. -/
theorem test_witness_HostReadsThePayloadOut :
    packet5.Inv ∧ packet5.fault = false ∧ smallest.Inv ∧ smallest.fault = false :=
  ⟨test_inv_packet5, rfl, test_inv_smallest, rfl⟩

/-- HandshakeEstablishesBothSides: two blocks after reset, and two with other buffers. -/
theorem test_witness_HandshakeEstablishesBothSides :
    State.reset.Inv ∧ State.reset.fault = false ∧ State.reset.cstate = .idle ∧ smallest.Inv ∧ smallest.fault = false ∧
    smallest.cstate = .idle :=
  ⟨test_inv_reset, rfl, rfl, test_inv_smallest, rfl, rfl⟩

/-- EchoReturnsTheMessage: the longest message; DLEN and the last byte of DATA overwritten while the echo is awaited. -/
theorem test_witness_EchoReturnsTheMessage :
    (inState .cEstablished full).Inv ∧ (inState .sEstablished packet5).Inv ∧
    ((inState .cEstablished full).fault = false ∧ (inState .sEstablished packet5).fault = false ∧
      (inState .cEstablished full).cstate = .cEstablished ∧ (inState .sEstablished packet5).cstate = .sEstablished ∧
      5 + (inState .cEstablished full).dlen.toNat ≤ maxPktOf (inState .sEstablished packet5)) ∧
    ∀ o ∈ [(Instr.setDlen 0#16, 0#16), (Instr.wrData 58#16 0xAA#8, 0#16)],
      (∃ idx v, o.1 = .wrData idx v ∧ idx.toNat < maxDataOf (inState .cEstablished full)) ∨
      ∃ v, o.1 = .setDlen v ∧ v.toNat ≤ maxDataOf (inState .cEstablished full) :=
  ⟨(test_inv_states _).2.2, (test_inv_states _).1, by decide, fun o ho => by
    rcases List.mem_cons.1 ho with rfl | ho
    · exact .inr ⟨_, rfl, by decide⟩
    · obtain rfl := List.mem_singleton.1 ho
      exact .inl ⟨_, _, rfl, by decide⟩⟩

/-! The statements that share another's hypotheses. -/

theorem test_witness_ResetDrawsTheBuffersAfresh : ({ halted with pending := [⟨true, 0, 0⟩] } : State).pending =
    ⟨true, 0, 0⟩ :: [] := rfl
theorem test_witness_StepAlwaysCompletes : (inState .cEchoWait packet5).Inv := (test_inv_states _).1
theorem test_witness_BuffersChangeOnlyWhereNamed : (∃ t, exec .sRecv (inState .sEstablished packet5) = .next t) ∧
    writesPayload .sRecv .sEstablished (finInPkt packet5) = false ∧ writesDataSegment .sRecv .sEstablished = false :=
  ⟨⟨_, rfl⟩, by decide⟩
theorem test_witness_CommandsKeepParameterAndInputs : ∃ t, exec .sRecv packet5 = .next t := ⟨_, rfl⟩
theorem test_witness_FramingRoundTrips : full.Inv ∧ full.fault = false ∧ 5 ≤ full.plen.toNat := ⟨test_inv_full, by decide⟩
theorem test_witness_ByteReadsGoToRes : State.reset.fault = false ∧ (63#16).toNat < maxPktOf State.reset ∧
    maxPktOf State.reset ≤ (0xFFFF#16).toNat ∧ (58#16).toNat < maxDataOf State.reset ∧
    maxDataOf State.reset ≤ (59#16).toNat := by decide
theorem test_witness_DataPacketIsBuilt : full.Inv ∧ full.fault = false := ⟨test_inv_full, rfl⟩
theorem test_witness_ServerAckIsBuiltInPlace : packet5.fault = false ∧ packet5.plen.toNat = 5 ∧ packet4.fault = false ∧
    packet4.plen.toNat = 4 := by decide
theorem test_witness_CloseAckIsBuiltInPlace : finPacket.fault = false ∧ finPacket.plen.toNat = 5 ∧ packet4.fault = false ∧
    packet4.plen.toNat = 4 := by decide
theorem test_witness_ClientCloses : (inState .cEstablished State.reset).fault = false ∧
    (inState .cEstablished State.reset).cstate = .cEstablished ∧ State.reset.cstate ≠ .cEstablished := by decide
theorem test_witness_LoadDataPlacesTheSegment : State.reset.fault = false ∧
    (List.replicate 59 0x55#8).length ≤ maxDataOf State.reset := by decide

end Sys2Proof.Tests
end

section
/-! PROOFS. What a step runs and what every command keeps (00_scope.md R1, R5, R10; 10_state.md R20). -/

namespace Sys2Proof.Machine

/-! ### A step on a presented word (R1, R10) -/

/-- With a word at the front of what is pending and no reset, the step runs that word. -/
theorem step_of_pending_word {s : State} {w : CmdWord} {r : Word} {rest : List HostInput}
    (h : s.pending = ⟨false, w, r⟩ :: rest) : step s = runWord w { s with rnd := r, pending := rest } := by
  simp [step, present, h, setInput]

theorem runWord_of_decode {w : CmdWord} {i : Instr} (h : decode w = .ok i) (s : State) : runWord w s = exec i s := by
  simp [runWord, h]

/-- Settles O6: a presented word is run whether it decodes or not, and a word that decodes runs its command. -/
theorem stepRunsTheDecodedCommand : Obligations.StepRunsTheDecodedCommand := by
  intro s w r rest h
  exact ⟨step_of_pending_word h, fun i hi => (step_of_pending_word h).trans (runWord_of_decode hi _)⟩

/-! ### Every command is the prologue around a check and a body (R9, R153) -/

/-- The check of a command, which is made before anything is written (R153). -/
def execCheck : Instr → State → Option Err
  | .split | .buildClientAck | .buildServerAck | .buildCloseAck => checkHeader
  | .wrPkt idx _ | .rdPkt idx => fun s => checkIndex idx (maxPktOf s)
  | .wrData idx _ | .rdData idx => fun s => checkIndex idx (maxDataOf s)
  | .setPlen imm => fun s => checkLength imm (maxPktOf s)
  | .setDlen imm => fun s => checkLength imm (maxDataOf s)
  | .cConnect => checkState [.idle]
  | .cRecv => fun s => firstError (checkState [.cSynSent, .cEchoWait, .cClosing] s) (checkHeader s)
  | .cSend | .cClose => checkState [.cEstablished]
  | .sRecv => fun s => firstError (checkState [.idle, .sSynRcvd, .sEstablished] s) (checkServerHeader s)
  | .nop | .encSeq _ | .decSeq | .encAck _ | .decAck | .setFlag _ | .clrFlag _ | .hasFlag _ | .clrHdr | .decFlags
  | .assemble | .getPlen | .getDlen | .buildConnReq | .buildDiscReq | .buildData | .vConnReq | .vClientAck
  | .vServerAck | .vDiscReq | .captureOrig | .abort => fun _ => none

/-- The body of a command, which runs when its check passes and TXV is cleared. -/
def execBody : Instr → State → Result
  | .nop => .next
  | .encSeq imm => fun s => .next (setHdr s (setSeq s.hdr imm))
  | .decSeq => fun s => .next (setRes s (hdrSeq s.hdr))
  | .encAck imm => fun s => .next (setHdr s (setAck s.hdr imm))
  | .decAck => fun s => .next (setRes s (hdrAck s.hdr))
  | .setFlag mask => fun s => .next (setHdr s (setFlags s.hdr (orMask s.hdr.flags mask)))
  | .clrFlag mask => fun s => .next (setHdr s (setFlags s.hdr (clearMask s.hdr.flags mask)))
  | .hasFlag mask => fun s => .next (setRes s (boolWord (anyMask s.hdr.flags mask)))
  | .clrHdr => fun s => .next (setHdr s emptyHdr)
  | .decFlags => fun s => .next (setRes s (zext16 s.hdr.flags))
  | .assemble => assembleBody
  | .split => splitBody
  | .wrPkt idx val => fun s => .next (setPkt s (storeCell s.pkt idx.toNat val))
  | .rdPkt idx => fun s => .next (setRes s (zext16 (readPkt s idx.toNat)))
  | .wrData idx val => fun s => .next (setData s (storeCell s.data idx.toNat val))
  | .rdData idx => fun s => .next (setRes s (zext16 (readData s idx.toNat)))
  | .setPlen imm => fun s => .next (setPlen s imm)
  | .getPlen => fun s => .next (setRes s s.plen)
  | .setDlen imm => fun s => .next (setDlen s imm)
  | .getDlen => fun s => .next (setRes s s.dlen)
  | .buildConnReq => fun s => .next (connReqBody s)
  | .buildDiscReq => fun s => .next (discReqBody s)
  | .buildData => dataPacketBody
  | .buildClientAck => fun s => .next (ackInPlace clientAckXf s)
  | .buildServerAck => fun s => .next (ackInPlace (fun h => serverAckXf h s.rnd) s)
  | .buildCloseAck => fun s => .next (ackInPlace (fun h => closeAckXf h s.rnd) s)
  | .vConnReq => fun s => .next (setRes s (boolWord (anyMask s.hdr.flags maskSyn)))
  | .vClientAck => fun s => .next (setRes s (boolWord (anyMask s.hdr.flags maskAck)))
  | .vServerAck => fun s => .next (setRes s (boolWord (serverAckOk s.hdr s.origSeq)))
  | .vDiscReq => fun s => .next (setRes s (boolWord (anyMask s.hdr.flags maskFin)))
  | .captureOrig => fun s => .next (setOrigSeq s (hdrSeq s.hdr))
  | .cConnect => fun s => .next (sendThen .cSynSent (connReqBody s))
  | .cRecv => cRecvBody
  | .cSend => fun s => andThen (dataPacketBody s) fun t => .next (sendThen .cEchoWait t)
  | .cClose => fun s => .next (sendThen .cClosing (discReqBody s))
  | .sRecv => sRecvBody
  | .abort => fun s => .next (setCstate s .closed)

/-- The two tables above against the model's dispatch. -/
theorem exec_eq_command (i : Instr) (s : State) : exec i s = command (execCheck i s) (execBody i) s := by
  cases i <;> rfl

/-- A live block whose check passes runs the body, with TXV cleared. -/
theorem exec_runs {i : Instr} {s : State} (hf : s.fault = false) (hc : execCheck i s = none) :
    exec i s = execBody i (setTxv s false) := by
  rw [exec_eq_command, hc, command_runs hf]

/-! ### The fields that no command writes (R5, R20; logs 1, 2 and 5) -/

/-- `t` has the parameter, the draw and the inputs of `s`. -/
structure SameEnvironment (s t : State) : Prop where
  maxData : t.maxData = s.maxData
  draw    : t.draw = s.draw
  rnd     : t.rnd = s.rnd
  pending : t.pending = s.pending

/-- Every next state that `body` answers has the environment of the state it ran on. -/
def KeepsEnvironment (body : State → Result) : Prop := ∀ s t, body s = .next t → SameEnvironment s t

/-- A total function applied to what a body answers. -/
theorem keepsEnvironment_andThen {body : State → Result} {f : State → State} (hb : KeepsEnvironment body)
    (hf : ∀ s, SameEnvironment s (f s)) : KeepsEnvironment fun s => andThen (body s) fun t => .next (f t) := by
  intro s t ht
  obtain ⟨u, hu, hut⟩ := andThen_next ht
  obtain rfl := Host.Outcome.next.inj hut
  obtain ⟨hm, hd, hr, hp⟩ := hb s u hu
  obtain ⟨hm', hd', hr', hp'⟩ := hf u
  exact ⟨hm'.trans hm, hd'.trans hd, hr'.trans hr, hp'.trans hp⟩

theorem assembleBody_keepsEnvironment : KeepsEnvironment assembleBody := by
  intro s t h
  obtain ⟨-, ht, -⟩ := assembleBody_next h
  rw [ht]
  exact ⟨rfl, rfl, rfl, rfl⟩

theorem dataPacketBody_keepsEnvironment : KeepsEnvironment dataPacketBody := by
  intro s t h
  obtain ⟨hm, hd, hr, hp⟩ := assembleBody_keepsEnvironment _ t h
  exact ⟨hm, hd, hr, hp⟩

theorem splitBody_keepsEnvironment : KeepsEnvironment splitBody := by
  intro s t h
  obtain ⟨-, ht, -⟩ := splitBody_next h
  rw [ht]
  exact ⟨rfl, rfl, rfl, rfl⟩

theorem cRecvBody_keepsEnvironment : KeepsEnvironment cRecvBody := by
  intro s t h
  cases hc : s.cstate with
  | cEchoWait =>
    simp only [cRecvBody, hc] at h
    exact keepsEnvironment_andThen (f := fun t => setCstate (setRes t t.dlen) .cEstablished)
      splitBody_keepsEnvironment (fun _ => ⟨rfl, rfl, rfl, rfl⟩) s t h
  | _ =>
    simp only [cRecvBody, hc] at h
    obtain rfl := Host.Outcome.next.inj h
    exact ⟨rfl, rfl, rfl, rfl⟩

theorem serveEstablished_sameEnvironment (s : State) : SameEnvironment s (serveEstablished s) := by
  unfold serveEstablished
  split <;> exact ⟨rfl, rfl, rfl, rfl⟩

theorem sRecvBody_keepsEnvironment : KeepsEnvironment sRecvBody := by
  intro s t h
  cases hc : s.cstate with
  | sEstablished =>
    simp only [sRecvBody, hc] at h
    obtain rfl := Host.Outcome.next.inj h
    exact serveEstablished_sameEnvironment s
  | _ =>
    simp only [sRecvBody, hc] at h
    obtain rfl := Host.Outcome.next.inj h
    exact ⟨rfl, rfl, rfl, rfl⟩

/-- The prologue adds nothing to what a body changes of the environment. -/
theorem command_sameEnvironment {c : Option Err} {body : State → Result} {s t : State} (hb : KeepsEnvironment body)
    (h : command c body s = .next t) : SameEnvironment s t := by
  obtain ⟨-, rfl⟩ | ⟨-, e, -, rfl⟩ | ⟨-, -, hbody⟩ := command_next_cases h
  · exact ⟨rfl, rfl, rfl, rfl⟩
  · exact ⟨rfl, rfl, rfl, rfl⟩
  · obtain ⟨hm, hd, hr, hp⟩ := hb _ t hbody
    exact ⟨hm, hd, hr, hp⟩

/-- All but six commands have a body that is a plain update of registers. -/
theorem execBody_keepsEnvironment (i : Instr) : KeepsEnvironment (execBody i) := by
  cases i with
  | assemble => exact assembleBody_keepsEnvironment
  | split => exact splitBody_keepsEnvironment
  | buildData => exact dataPacketBody_keepsEnvironment
  | cSend =>
    exact keepsEnvironment_andThen (f := sendThen .cEchoWait) dataPacketBody_keepsEnvironment
      fun _ => ⟨rfl, rfl, rfl, rfl⟩
  | cRecv => exact cRecvBody_keepsEnvironment
  | sRecv => exact sRecvBody_keepsEnvironment
  | _ =>
    intro s t h
    obtain rfl := Host.Outcome.next.inj h
    exact ⟨rfl, rfl, rfl, rfl⟩

theorem exec_sameEnvironment {i : Instr} {s t : State} (h : exec i s = .next t) : SameEnvironment s t :=
  command_sameEnvironment (execBody_keepsEnvironment i) (exec_eq_command i s ▸ h)

/-- Settles O22: each command is the prologue around a body, and no body writes these fields. -/
theorem commandsKeepParameterAndInputs : Obligations.CommandsKeepParameterAndInputs := by
  intro i s t h
  obtain ⟨hm, hd, hr, hp⟩ := exec_sameEnvironment h
  exact ⟨hm, hd, hr, hp⟩

end Sys2Proof.Machine
end

section
/-! PROOFS. A presented list of words runs as its list of commands (00_scope.md R10; 10_state.md R31): no command reads what
is pending, so the words still to come can be put back behind each command. -/

namespace Sys2Proof.Machine

/-! ### Running beside a change of the state -/

/-- Running `body` after the change `f` is running it before the change. -/
def CommutesWith (f : State → State) (body : State → Result) : Prop :=
  ∀ s, body (f s) = andThen (body s) fun t => .next (f t)

/-- A total function applied to what a body answers. -/
theorem commutesWith_andThen {f g : State → State} {body : State → Result} (hb : CommutesWith f body)
    (hg : ∀ s, g (f s) = f (g s)) : CommutesWith f fun s => andThen (body s) fun t => .next (g t) := by
  intro s
  simp only [hb s]
  cases body s with
  | next t => exact congrArg Host.Outcome.next (hg t)
  | fault e => rfl
  | refused e => rfl

/-- The prologue commutes with a change of fields other than FAULT, ERR and TXV, when the check does not see it. -/
theorem command_commutesWith {f : State → State} {c : Option Err} {body : State → Result} {s : State}
    (hfault : (f s).fault = s.fault) (htxv : setTxv (f s) false = f (setTxv s false))
    (htake : ∀ e, takeFault e (f s) = f (takeFault e s)) (hb : CommutesWith f body) :
    command c body (f s) = andThen (command c body s) fun t => .next (f t) := by
  cases hf : s.fault with
  | true => rw [command_halted hf, command_halted (hfault.trans hf), andThen_of_next]
  | false =>
    cases c with
    | some e => rw [command_error hf, command_error (hfault.trans hf), htake, andThen_of_next]
    | none => rw [command_runs hf, command_runs (hfault.trans hf), htxv, hb]

/-! ### What is pending -/

/-- `s` with `p` for what the host will drive. -/
def withPending (p : List HostInput) (s : State) : State := { s with pending := p }

theorem assembleBody_withPending (p : List HostInput) : CommutesWith (withPending p) assembleBody := by
  intro s
  have hfits : ((withPending p s).dlen.toNat ≤ maxDataOf (withPending p s)) = (s.dlen.toNat ≤ maxDataOf s) := rfl
  simp only [assembleBody, hfits]
  split <;> rfl

theorem dataPacketBody_withPending (p : List HostInput) : CommutesWith (withPending p) dataPacketBody :=
  fun s => assembleBody_withPending p (setHdr s (setFlags emptyHdr maskPsh))

theorem splitBody_withPending (p : List HostInput) : CommutesWith (withPending p) splitBody := by
  intro s
  have hfits : ((withPending p s).plen.toNat ≤ maxPktOf (withPending p s)) = (s.plen.toNat ≤ maxPktOf s) := rfl
  simp only [splitBody, hfits]
  split <;> rfl

theorem cRecvBody_withPending (p : List HostInput) : CommutesWith (withPending p) cRecvBody := by
  intro s
  have hc' : (withPending p s).cstate = s.cstate := rfl
  cases hc : s.cstate with
  | cEchoWait =>
    simp only [cRecvBody, hc', hc]
    exact commutesWith_andThen (g := fun t => setCstate (setRes t t.dlen) .cEstablished)
      (splitBody_withPending p) (fun _ => rfl) s
  | _ =>
    simp only [cRecvBody, hc', hc]
    rfl

theorem serveEstablished_withPending (p : List HostInput) (s : State) :
    serveEstablished (withPending p s) = withPending p (serveEstablished s) := by
  have hfin : (loadHdr (withPending p s)).hdr.flags = (loadHdr s).hdr.flags := rfl
  unfold serveEstablished
  rw [hfin]
  split <;> rfl

theorem sRecvBody_withPending (p : List HostInput) : CommutesWith (withPending p) sRecvBody := by
  intro s
  have hc' : (withPending p s).cstate = s.cstate := rfl
  cases hc : s.cstate with
  | sEstablished =>
    simp only [sRecvBody, hc', hc]
    exact congrArg Host.Outcome.next (serveEstablished_withPending p s)
  | _ =>
    simp only [sRecvBody, hc', hc]
    rfl

theorem execBody_withPending (i : Instr) (p : List HostInput) : CommutesWith (withPending p) (execBody i) := by
  cases i with
  | assemble => exact assembleBody_withPending p
  | split => exact splitBody_withPending p
  | buildData => exact dataPacketBody_withPending p
  | cSend =>
    exact commutesWith_andThen (g := sendThen .cEchoWait) (dataPacketBody_withPending p) fun _ => rfl
  | cRecv => exact cRecvBody_withPending p
  | sRecv => exact sRecvBody_withPending p
  | _ => exact fun _ => rfl

theorem execCheck_withPending (i : Instr) (p : List HostInput) (s : State) :
    execCheck i (withPending p s) = execCheck i s := by
  cases i <;> rfl

/-- No command reads or writes what is pending. -/
theorem exec_withPending (i : Instr) (p : List HostInput) : CommutesWith (withPending p) (exec i) := by
  intro s
  simp only [exec_eq_command, execCheck_withPending]
  exact command_commutesWith rfl rfl (fun _ => rfl) (execBody_withPending i p)

/-! ### Encoded words -/

open Sys2Proof.Laws in
/-- The round trips of Laws/PerInstr, for all commands at once. -/
theorem decode_encode : ∀ i : Instr, decode (encode i) = .ok i
  | .nop => RoundTrip.nop
  | .encSeq imm => RoundTrip.encSeq imm
  | .decSeq => RoundTrip.decSeq
  | .encAck imm => RoundTrip.encAck imm
  | .decAck => RoundTrip.decAck
  | .setFlag mask => RoundTrip.setFlag mask
  | .clrFlag mask => RoundTrip.clrFlag mask
  | .hasFlag mask => RoundTrip.hasFlag mask
  | .clrHdr => RoundTrip.clrHdr
  | .decFlags => RoundTrip.decFlags
  | .assemble => RoundTrip.assemble
  | .split => RoundTrip.split
  | .wrPkt idx val => RoundTrip.wrPkt idx val
  | .rdPkt idx => RoundTrip.rdPkt idx
  | .wrData idx val => RoundTrip.wrData idx val
  | .rdData idx => RoundTrip.rdData idx
  | .setPlen imm => RoundTrip.setPlen imm
  | .getPlen => RoundTrip.getPlen
  | .setDlen imm => RoundTrip.setDlen imm
  | .getDlen => RoundTrip.getDlen
  | .buildConnReq => RoundTrip.buildConnReq
  | .buildDiscReq => RoundTrip.buildDiscReq
  | .buildData => RoundTrip.buildData
  | .buildClientAck => RoundTrip.buildClientAck
  | .buildServerAck => RoundTrip.buildServerAck
  | .buildCloseAck => RoundTrip.buildCloseAck
  | .vConnReq => RoundTrip.vConnReq
  | .vClientAck => RoundTrip.vClientAck
  | .vServerAck => RoundTrip.vServerAck
  | .vDiscReq => RoundTrip.vDiscReq
  | .captureOrig => RoundTrip.captureOrig
  | .cConnect => RoundTrip.cConnect
  | .cRecv => RoundTrip.cRecv
  | .cSend => RoundTrip.cSend
  | .cClose => RoundTrip.cClose
  | .sRecv => RoundTrip.sRecv
  | .abort => RoundTrip.abort

/-- The step on a presented encoding runs the command, and leaves the later inputs pending. -/
theorem step_of_pending_encode (i : Instr) (r : Word) (rest : List HostInput) (s : State) :
    step (withPending (⟨false, encode i, r⟩ :: rest) s) =
      andThen (exec i (driveRnd s r)) fun t => .next (withPending rest t) :=
  calc step (withPending (⟨false, encode i, r⟩ :: rest) s)
    _ = runWord (encode i) (withPending rest (driveRnd s r)) := step_of_pending_word rfl
    _ = exec i (withPending rest (driveRnd s r)) := runWord_of_decode (decode_encode i) _
    _ = andThen (exec i (driveRnd s r)) fun t => .next (withPending rest t) := exec_withPending i rest _

/-! ### The list -/

/-- The inputs that present a list of commands, one a step, without reset. -/
def inputsOf (cs : List (Instr × Word)) : List HostInput := cs.map fun c => ⟨false, encode c.1, c.2⟩

/-- `k` steps of the block, as the host's core runs them. -/
def runSteps (k : Nat) (s : State) : Result := Host.Core.run Sys2Proof.core k s

theorem runSteps_succ (k : Nat) (s : State) : runSteps (k + 1) s = andThen (step s) (runSteps k) := by
  show Host.Core.run Sys2Proof.core (k + 1) s = _
  have hcore : Sys2Proof.core.step s = step s := rfl
  simp only [Host.Core.run, hcore]
  cases step s <;> rfl

/-- By induction on the list: each step leaves the inputs still to come in front of what stood pending. -/
theorem runSteps_inputsOf (cs : List (Instr × Word)) (s : State) :
    runSteps cs.length (withPending (inputsOf cs ++ s.pending) s) = runCommands cs s := by
  induction cs generalizing s with
  | nil => rfl
  | cons c cs ih =>
    obtain ⟨i, r⟩ := c
    have hstep : step (withPending (inputsOf ((i, r) :: cs) ++ s.pending) s) = _ :=
      step_of_pending_encode i r (inputsOf cs ++ s.pending) s
    rw [List.length_cons, runSteps_succ, hstep, runCommands]
    cases h : exec i (driveRnd s r) with
    | next t =>
      have hpending : t.pending = s.pending := (exec_sameEnvironment h).pending
      simp only [andThen_of_next, ← hpending, ih t]
    | fault e => rfl
    | refused e => rfl

/-- Settles O55, by induction on the list of commands. -/
theorem presentedListRunsCommandByCommand : Obligations.PresentedListRunsCommandByCommand :=
  runSteps_inputsOf

end Sys2Proof.Machine
end

section
/-! PROOFS. Reading the payload out (00_scope.md R3; 70_reset_and_hazards.md R176). -/

namespace Sys2Proof.Machine

theorem maxPktOf_lt (s : State) : maxPktOf s < 2 ^ 16 := by
  have := s.maxData.isLt
  simp only [maxPktOf, Config.hdrLen]
  omega

theorem zext16_setWidth (v : Byte) : (zext16 v).setWidth 8 = v := by
  rw [zext16, BitVec.setWidth_setWidth_of_le v (by decide), BitVec.setWidth_eq]

theorem exec_getPlen_live {s : State} (h : s.fault = false) :
    exec .getPlen s = .next (setRes (setTxv s false) s.plen) :=
  exec_runs h rfl

/-- RD_PKT of an address inside PKT (R103). -/
theorem exec_rdPkt_inside {s : State} {a : Nat} (h : s.fault = false) (ha : a < maxPktOf s) :
    exec (.rdPkt (BitVec.ofNat 16 a)) s = .next (setRes (setTxv s false) (zext16 (readPkt s a))) := by
  have hidx : (BitVec.ofNat 16 a).toNat = a :=
    BitVec.toNat_ofNat .. ▸ Nat.mod_eq_of_lt (Nat.lt_trans ha (maxPktOf_lt s))
  have hcheck : checkIndex (BitVec.ofNat 16 a) (maxPktOf s) = none := checkIndex_none.2 (by rwa [hidx])
  calc exec (.rdPkt (BitVec.ofNat 16 a)) s
    _ = .next (setRes (setTxv s false) (zext16 (readPkt (setTxv s false) (BitVec.ofNat 16 a).toNat))) :=
      exec_runs h hcheck
    _ = .next (setRes (setTxv s false) (zext16 (readPkt s a))) := by
      rw [hidx, readPkt_congr (setTxv_pkt s false) (setTxv_draw s false)]

/-- The bytes taken from the RES port are PKT's, and only RES is disturbed once TXV is 0. -/
theorem collectFrom_eq {s : State} {a n : Nat} (hf : s.fault = false) (htxv : s.txv = false) (hn : a + n ≤ maxPktOf s) :
    ∃ v, collectFrom a n s = some (bytesFrom (readPkt s) a n, setRes s v) := by
  induction n generalizing a s with
  | zero => exact ⟨s.res, rfl⟩
  | succ n ih =>
    have hs : setTxv s false = s := by rw [← htxv]; rfl
    have hrd : exec (.rdPkt (BitVec.ofNat 16 a)) s = .next (setRes s (zext16 (readPkt s a))) := by
      rw [exec_rdPkt_inside hf (by omega), hs]
    obtain ⟨v, hv⟩ := ih (s := setRes s (zext16 (readPkt s a))) (a := a + 1) hf htxv
      (show a + 1 + n ≤ maxPktOf s by omega)
    refine ⟨v, ?_⟩
    simp only [collectFrom, hrd, hv, resPort, setRes_res, zext16_setWidth]
    rfl

/-- Settles O58: GET_PLEN gives the number of bytes, PLEN ≤ MAX_PKT keeps every read inside PKT. -/
theorem hostReadsThePayloadOut : Obligations.HostReadsThePayloadOut := by
  intro s hinv hf
  obtain ⟨v, hv⟩ := collectFrom_eq (s := setRes (setTxv s false) s.plen) (a := 0) (n := s.plen.toNat) hf rfl
    (show 0 + s.plen.toNat ≤ maxPktOf s by simpa using hinv.plenFits)
  refine ⟨setRes (setTxv s false) v, ?_, rfl⟩
  simp only [collect, exec_getPlen_live hf, resPort, setRes_res, hv]
  rfl

end Sys2Proof.Machine
end

section
/-! PROOFS. Reset and the STATUS word (10_state.md R29, R30, R33, R38; 70_reset_and_hazards.md R170). -/

namespace Sys2Proof.Machine

/-! ### Reset (R38, R170) -/

theorem step_of_pending_nil {s : State} (h : s.pending = []) : step s = .next s := by
  simp [step, present, h]

theorem step_of_pending_reset {s : State} {w : CmdWord} {r : Word} {rest : List HostInput}
    (h : s.pending = ⟨true, w, r⟩ :: rest) : step s = .next (assertReset (setInput s r rest)) := by
  simp [step, present, h]

theorem readPkt_of_nil {s : State} (h : s.pkt = []) (a : Nat) : readPkt s a = Config.pktAtReset s.draw a := by
  simp [readPkt, lookupCell, h]

theorem readData_of_nil {s : State} (h : s.data = []) (a : Nat) : readData s a = Config.dataAtReset s.draw a := by
  simp [readData, lookupCell, h]

/-- Settles O9: State.reset is a literal, and STATUS is composed of its zero codes. -/
theorem resetStateValues : Obligations.ResetStateValues := by
  refine ⟨rfl, rfl, rfl, rfl, rfl, rfl, rfl, rfl, rfl, ?_⟩
  decide

/-- Settles O10: after a reset no byte is written, so every read falls through to the free value of the new draw. -/
theorem resetDrawsTheBuffersAfresh : Obligations.ResetDrawsTheBuffersAfresh := by
  intro s w r rest h
  exact ⟨_, step_of_pending_reset h, rfl, readPkt_of_nil rfl, readData_of_nil rfl⟩

theorem resetWith_inv (m : Fin 65531) (d : Nat) (r : Word) (p : List HostInput) : (State.resetWith m d r p).Inv where
  pktWf := (resetWith_memory_wf m d r p).1
  pktInside := List.forall_mem_nil _
  dataWf := (resetWith_memory_wf m d r p).2
  dataInside := List.forall_mem_nil _
  plenFits := Nat.zero_le _
  dlenFits := Nat.zero_le _
  errIff := ⟨fun _ => rfl, fun _ => rfl⟩

/-- Settles O11: State.reset is one of the reset states, and in all of them nothing is written and both lengths are 0. -/
theorem invariantAtReset : Obligations.InvariantAtReset := ⟨resetWith_inv _ _ _ _, resetWith_inv⟩

/-! ### The fields of STATUS (R30) -/

/-- Each bit of STATUS belongs to one of the registers. -/
theorem statusPort_getLsbD (s : State) (i : Nat) :
    (statusPort s).getLsbD i =
      if i < 3 then (cstateCode s.cstate).getLsbD i
      else if i = 3 then s.txv
      else if i = 4 then s.fault
      else (errCode s.err).getLsbD (i - 5) := by
  have happend : (statusPort s).getLsbD i =
      BitVec.getLsbD (w := 8 + 3 + 1 + 1 + 3)
        (0#8 ++ errCode s.err ++ BitVec.ofBool s.fault ++ BitVec.ofBool s.txv ++ cstateCode s.cstate) i := rfl
  simp only [happend, BitVec.getLsbD_append, BitVec.getLsbD_ofBool]
  grind

theorem statusPort_cstate (s : State) : (statusPort s).extractLsb' 0 3 = cstateCode s.cstate := by
  ext i hi
  simp [statusPort_getLsbD, hi]

theorem statusPort_txv (s : State) : (statusPort s).getLsbD 3 = s.txv := by
  rw [statusPort_getLsbD]
  rfl

theorem statusPort_fault (s : State) : (statusPort s).getLsbD 4 = s.fault := by
  rw [statusPort_getLsbD]
  rfl

theorem statusPort_getLsbD_err (s : State) (i : Nat) : (statusPort s).getLsbD (5 + i) = (errCode s.err).getLsbD i := by
  rw [statusPort_getLsbD, if_neg (by omega), if_neg (by omega), if_neg (by omega), Nat.add_sub_cancel_left]

theorem statusPort_err (s : State) : (statusPort s).extractLsb' 5 3 = errCode s.err := by
  ext i hi
  rw [BitVec.getElem_extractLsb', statusPort_getLsbD_err, BitVec.getLsbD_eq_getElem hi]

/-- Above bit 7 a bit would belong to ERR, whose code has only three. -/
theorem statusPort_reserved (s : State) : (statusPort s).extractLsb' 8 8 = 0#8 := by
  ext i hi
  rw [BitVec.getElem_extractLsb', show 8 + i = 5 + (3 + i) by omega, statusPort_getLsbD_err,
    BitVec.getLsbD_of_ge _ _ (by omega), BitVec.getElem_zero]

/-- Settles O25: each field of STATUS is its register's code, and the codes are read off state by state. -/
theorem statusWordIsComposed : Obligations.StatusWordIsComposed := by
  intro s
  refine ⟨?_, statusPort_txv s, statusPort_fault s, ?_, statusPort_reserved s⟩
  · rw [statusPort_cstate]
    simp +contextual [cstateCode, connected]
  · rw [statusPort_err]
    simp +contextual [errCode]

end Sys2Proof.Machine
end

section
/-! PROOFS. The invariant (10_state.md R22 to R25, R33): every step from a state that meets it answers a state that meets
it, so no step stops (log 8). -/

namespace Sys2Proof.Machine

/-! ### The invariant after each register update -/

section
variable {s : State} (hs : s.Inv)
include hs

theorem inv_setHdr (v : Header) : (setHdr s v).Inv := { hs with }
theorem inv_setRes (v : Word) : (setRes s v).Inv := { hs with }
theorem inv_setOrigSeq (v : Word) : (setOrigSeq s v).Inv := { hs with }
theorem inv_setCstate (v : CState) : (setCstate s v).Inv := { hs with }
theorem inv_setTxv (v : Bool) : (setTxv s v).Inv := { hs with }
theorem inv_setInput (r : Word) (p : List HostInput) : (setInput s r p).Inv := { hs with }

theorem inv_setPlen {v : Word} (hv : v.toNat ≤ maxPktOf s) : (setPlen s v).Inv := { hs with plenFits := hv }

theorem inv_setDlen {v : Word} (hv : v.toNat ≤ maxDataOf s) : (setDlen s v).Inv := { hs with dlenFits := hv }

theorem inv_storeCell_pkt {a : Nat} (v : Byte) (ha : a < maxPktOf s) : (setPkt s (storeCell s.pkt a v)).Inv :=
  { hs with
    pktWf := storeCell_wf a v hs.pktWf
    pktInside := storeCell_inside v ha hs.pktInside }

theorem inv_storeCell_data {a : Nat} (v : Byte) (ha : a < maxDataOf s) : (setData s (storeCell s.data a v)).Inv :=
  { hs with
    dataWf := storeCell_wf a v hs.dataWf
    dataInside := storeCell_inside v ha hs.dataInside }

theorem inv_storeBytes_pkt {vs : List Byte} (hv : vs.length ≤ maxPktOf s) :
    (setPkt s (storeBytes s.pkt 0 vs)).Inv :=
  { hs with
    pktWf := storeBytes_wf 0 vs hs.pktWf
    pktInside := storeBytes_inside (by rwa [Nat.zero_add]) hs.pktInside }

theorem inv_storeBytes_data {vs : List Byte} (hv : vs.length ≤ maxDataOf s) :
    (setData s (storeBytes s.data 0 vs)).Inv :=
  { hs with
    dataWf := storeBytes_wf 0 vs hs.dataWf
    dataInside := storeBytes_inside (by rwa [Nat.zero_add]) hs.dataInside }

theorem inv_takeFault {e : Err} (he : e ≠ .noError) : (takeFault e s).Inv :=
  { hs with errIff := ⟨nofun, fun h => absurd h he⟩ }

end

/-! ### The shared operations -/

theorem five_le_maxPktOf (s : State) : 5 ≤ maxPktOf s := Nat.le_add_left _ _

section
variable {s : State} (hs : s.Inv)
include hs

theorem inv_loadHdr : (loadHdr s).Inv := inv_setHdr hs _

theorem inv_storeHdr : (storeHdr s).Inv := inv_storeBytes_pkt hs (five_le_maxPktOf s)

theorem inv_freshPacket (h : Header) : (freshPacket h s).Inv :=
  inv_setPlen (inv_storeHdr (inv_setHdr hs h)) (five_le_maxPktOf s)

theorem inv_connReqBody : (connReqBody s).Inv := inv_setOrigSeq (inv_freshPacket hs _) _

theorem inv_ackInPlace (xf : Header → Header) : (ackInPlace xf s).Inv := inv_storeHdr (inv_setHdr (inv_loadHdr hs) _)

theorem inv_sendThen (c : CState) : (sendThen c s).Inv := inv_setCstate (inv_setTxv hs true) c

end

/-! ### Results -/

/-- The result is a next state, and that state meets the invariant. -/
def AnswersInv (r : Result) : Prop := ∃ t, r = .next t ∧ t.Inv

theorem answersInv_next {t : State} (h : t.Inv) : AnswersInv (.next t) := ⟨t, rfl, h⟩

theorem answersInv_andThen {r : Result} {f : State → State} (hr : AnswersInv r) (hf : ∀ t, t.Inv → (f t).Inv) :
    AnswersInv (andThen r fun t => .next (f t)) := by
  obtain ⟨t, rfl, ht⟩ := hr
  exact answersInv_next (hf t ht)

/-! ### Checks that pass, and checks that fail -/

theorem firstError_none {a b : Option Err} : firstError a b = none ↔ a = none ∧ b = none := by
  cases a <;> simp [firstError]

theorem firstError_ne_some {a b : Option Err} {e : Err} (ha : a ≠ some e) (hb : b ≠ some e) : firstError a b ≠ some e := by
  cases a with
  | none => exact hb
  | some e' => exact ha

theorem checkIndex_ne_noError (idx : Word) (n : Nat) : checkIndex idx n ≠ some .noError := by
  simp [checkIndex_some]

theorem checkLength_ne_noError (len : Word) (n : Nat) : checkLength len n ≠ some .noError := by
  simp [checkLength_some]

theorem checkHeader_ne_noError (s : State) : checkHeader s ≠ some .noError := by
  simp [checkHeader_some]

theorem checkState_ne_noError (l : List CState) (s : State) : checkState l s ≠ some .noError := by
  simp [checkState_some]

theorem checkServerHeader_ne_noError (s : State) : checkServerHeader s ≠ some .noError := by
  unfold checkServerHeader
  split
  · nofun
  · exact checkHeader_ne_noError s

/-- A failed check names an error (R154). -/
theorem execCheck_ne_noError (i : Instr) (s : State) : execCheck i s ≠ some .noError := by
  cases i with
  | split | buildClientAck | buildServerAck | buildCloseAck => exact checkHeader_ne_noError s
  | wrPkt | rdPkt | wrData | rdData => exact checkIndex_ne_noError _ _
  | setPlen | setDlen => exact checkLength_ne_noError _ _
  | cConnect | cSend | cClose => exact checkState_ne_noError _ s
  | cRecv => exact firstError_ne_some (checkState_ne_noError _ s) (checkHeader_ne_noError s)
  | sRecv => exact firstError_ne_some (checkState_ne_noError _ s) (checkServerHeader_ne_noError s)
  | _ => nofun

theorem execCheck_setTxv (i : Instr) (s : State) (v : Bool) : execCheck i (setTxv s v) = execCheck i s := by
  cases i <;> rfl

/-! ### Bodies -/

section
variable {s : State} (hs : s.Inv)
include hs

/-- DLEN ≤ MAX_DATA keeps the segment inside DATA, and the header and it inside PKT. -/
theorem assembleBody_answersInv : AnswersInv (assembleBody s) := by
  have hlen : 5 + s.dlen.toNat ≤ maxPktOf s := by
    rw [Nat.add_comm]
    exact Nat.add_le_add_right hs.dlenFits 5
  rw [assembleBody, if_pos hs.dlenFits]
  refine answersInv_next (inv_setPlen (inv_storeBytes_pkt hs ?_) ?_)
  · simpa [dataSegment] using hlen
  · rw [assembled_plen hs.dlenFits]
    exact hlen

theorem dataPacketBody_answersInv : AnswersInv (dataPacketBody s) := assembleBody_answersInv (inv_setHdr hs _)

/-- PLEN ≥ 5 keeps PLEN - 5 from wrapping, and PLEN ≤ MAX_PKT keeps the segment inside DATA. -/
theorem splitBody_answersInv (h5 : 5 ≤ s.plen.toNat) : AnswersInv (splitBody s) := by
  have hlen : s.plen.toNat - 5 ≤ maxDataOf s := Nat.sub_le_of_le_add hs.plenFits
  rw [splitBody, if_pos hs.plenFits]
  refine answersInv_next (inv_setDlen (inv_storeBytes_data (inv_loadHdr hs) ?_) ?_)
  · rwa [bytesFrom_length]
  · rw [split_dlen h5]
    exact hlen

theorem cRecvBody_answersInv (h5 : 5 ≤ s.plen.toNat) : AnswersInv (cRecvBody s) := by
  cases hc : s.cstate with
  | cSynSent | cClosing =>
    simp only [cRecvBody, hc]
    exact answersInv_next (inv_sendThen (inv_ackInPlace hs _) _)
  | cEchoWait =>
    simp only [cRecvBody, hc]
    exact answersInv_andThen (splitBody_answersInv hs h5) fun t ht => inv_setCstate (inv_setRes ht _) _
  | _ =>
    simp only [cRecvBody, hc]
    exact answersInv_next hs

theorem inv_serveEstablished : (serveEstablished s).Inv := by
  unfold serveEstablished
  split
  · exact inv_sendThen (inv_ackInPlace hs _) _
  · exact inv_setTxv (inv_loadHdr hs) true

theorem sRecvBody_answersInv : AnswersInv (sRecvBody s) := by
  cases hc : s.cstate with
  | idle =>
    simp only [sRecvBody, hc]
    exact answersInv_next (inv_sendThen (inv_ackInPlace hs _) _)
  | sSynRcvd =>
    simp only [sRecvBody, hc]
    exact answersInv_next (inv_setCstate hs _)
  | sEstablished =>
    simp only [sRecvBody, hc]
    exact answersInv_next (inv_serveEstablished hs)
  | _ =>
    simp only [sRecvBody, hc]
    exact answersInv_next hs

/-- Behind a check that passes, every body answers a state that meets the invariant. -/
theorem execBody_answersInv {i : Instr} (hc : execCheck i s = none) : AnswersInv (execBody i s) := by
  cases i with
  | assemble => exact assembleBody_answersInv hs
  | split => exact splitBody_answersInv hs (checkHeader_none.1 hc)
  | wrPkt => exact answersInv_next (inv_storeCell_pkt hs _ (checkIndex_none.1 hc))
  | wrData => exact answersInv_next (inv_storeCell_data hs _ (checkIndex_none.1 hc))
  | setPlen => exact answersInv_next (inv_setPlen hs (checkLength_none.1 hc))
  | setDlen => exact answersInv_next (inv_setDlen hs (checkLength_none.1 hc))
  | buildConnReq => exact answersInv_next (inv_connReqBody hs)
  | buildDiscReq => exact answersInv_next (inv_freshPacket hs _)
  | buildData => exact dataPacketBody_answersInv hs
  | buildClientAck | buildServerAck | buildCloseAck => exact answersInv_next (inv_ackInPlace hs _)
  | cConnect => exact answersInv_next (inv_sendThen (inv_connReqBody hs) _)
  | cRecv => exact cRecvBody_answersInv hs (checkHeader_none.1 (firstError_none.1 hc).2)
  | cSend => exact answersInv_andThen (dataPacketBody_answersInv hs) fun t ht => inv_sendThen ht _
  | cClose => exact answersInv_next (inv_sendThen (inv_freshPacket hs _) _)
  | sRecv => exact sRecvBody_answersInv hs
  | nop => exact answersInv_next hs
  | encSeq | encAck | setFlag | clrFlag | clrHdr => exact answersInv_next (inv_setHdr hs _)
  | captureOrig => exact answersInv_next (inv_setOrigSeq hs _)
  | abort => exact answersInv_next (inv_setCstate hs _)
  | decSeq | decAck | hasFlag | decFlags | rdPkt | rdData | getPlen | getDlen | vConnReq | vClientAck | vServerAck
  | vDiscReq => exact answersInv_next (inv_setRes hs _)

/-! ### Commands, words, steps -/

/-- A halted block keeps its state, a failed check enters the fault, and otherwise the body decides (R9, R153). -/
theorem command_answersInv {c : Option Err} {body : State → Result} (hc : c ≠ some .noError)
    (hb : c = none → AnswersInv (body (setTxv s false))) : AnswersInv (command c body s) := by
  cases hf : s.fault with
  | true =>
    rw [command_halted hf]
    exact answersInv_next hs
  | false =>
    cases c with
    | some e =>
      rw [command_error hf]
      exact answersInv_next (inv_takeFault hs fun he => hc (congrArg some he))
    | none =>
      rw [command_runs hf]
      exact hb rfl

theorem exec_answersInv (i : Instr) : AnswersInv (exec i s) := by
  rw [exec_eq_command]
  refine command_answersInv hs (execCheck_ne_noError i s) fun hc => ?_
  exact execBody_answersInv (inv_setTxv hs false) ((execCheck_setTxv i s false).trans hc)

theorem runWord_answersInv (w : CmdWord) : AnswersInv (runWord w s) := by
  unfold runWord
  split
  · exact exec_answersInv hs _
  · exact command_answersInv hs (by decide) nofun

/-- Whatever is presented, a step from a good state answers a good state. -/
theorem step_answersInv : AnswersInv (step s) := by
  cases hp : s.pending with
  | nil =>
    rw [step_of_pending_nil hp]
    exact answersInv_next hs
  | cons inp rest =>
    obtain ⟨reset, w, r⟩ := inp
    cases reset with
    | true =>
      rw [step_of_pending_reset hp]
      exact answersInv_next (resetWith_inv _ _ _ _)
    | false =>
      rw [step_of_pending_word hp]
      exact runWord_answersInv (inv_setInput hs r rest) w

end

/-- Settles O12: the one next state that a step answers is the good one. -/
theorem stepKeepsInvariant : Obligations.StepKeepsInvariant := by
  intro s t hs h
  obtain ⟨u, hu, hinv⟩ := step_answersInv hs
  obtain rfl : u = t := Host.Outcome.next.inj (hu.symm.trans h)
  exact hinv

/-- Settles O13, by the lemma over the cases of what is presented. -/
theorem stepAlwaysCompletes : Obligations.StepAlwaysCompletes := by
  intro s hs
  obtain ⟨t, ht, -⟩ := step_answersInv hs
  exact ⟨t, ht⟩

end Sys2Proof.Machine
end

section
/-! PROOFS. What a command leaves of FAULT, TXV, RES and ORIG_SEQ (10_state.md R27, R28, R32). -/

namespace Sys2Proof.Machine

/-- What the body of the command `i`, run on `s`, has done to FAULT, TXV, RES and ORIG_SEQ when it answers `t`: TXV is
only ever raised, by the commands that ask for a send. -/
structure ControlAfter (i : Instr) (s t : State) : Prop where
  fault   : t.fault = s.fault
  txv     : t.txv = (s.txv || asksForSend i s.cstate)
  res     : writesRes i s.cstate = false → t.res = s.res
  origSeq : writesOrigSeq i = false → t.origSeq = s.origSeq

theorem assembleBody_control {s t : State} (h : assembleBody s = .next t) : ControlAfter .assemble s t := by
  obtain ⟨-, ht, -⟩ := assembleBody_next h
  rw [ht]
  exact ⟨rfl, (Bool.or_false _).symm, fun _ => rfl, fun _ => rfl⟩

theorem splitBody_control {s t : State} (h : splitBody s = .next t) : ControlAfter .split s t := by
  obtain ⟨-, ht, -⟩ := splitBody_next h
  rw [ht]
  exact ⟨rfl, (Bool.or_false _).symm, fun _ => rfl, fun _ => rfl⟩

theorem dataPacketBody_control {s t : State} (h : dataPacketBody s = .next t) : ControlAfter .buildData s t := by
  obtain ⟨hf, ht, hr, ho⟩ := assembleBody_control h
  exact ⟨hf, ht, hr, ho⟩

theorem cSend_control {s t : State} (h : execBody .cSend s = .next t) : ControlAfter .cSend s t := by
  obtain ⟨u, hu, hut⟩ := andThen_next h
  obtain rfl := Host.Outcome.next.inj hut
  obtain ⟨hf, -, hr, ho⟩ := dataPacketBody_control hu
  exact ⟨hf, (Bool.or_true _).symm, hr, ho⟩

theorem cRecvBody_control {s t : State} (h : cRecvBody s = .next t) : ControlAfter .cRecv s t := by
  cases hc : s.cstate with
  | cEchoWait =>
    simp only [cRecvBody, hc] at h
    obtain ⟨u, hu, hut⟩ := andThen_next h
    obtain rfl := Host.Outcome.next.inj hut
    obtain ⟨hf, ht, -, ho⟩ := splitBody_control hu
    exact ⟨hf, by simpa [asksForSend, hc] using ht, by simp [writesRes, hc], ho⟩
  | _ =>
    simp only [cRecvBody, hc] at h
    obtain rfl := Host.Outcome.next.inj h
    exact ⟨rfl, by simp [asksForSend, hc, sendThen], fun _ => rfl, fun _ => rfl⟩

theorem serveEstablished_control (s : State) :
    (serveEstablished s).fault = s.fault ∧ (serveEstablished s).txv = true ∧ (serveEstablished s).res = s.res ∧
      (serveEstablished s).origSeq = s.origSeq := by
  unfold serveEstablished
  split <;> exact ⟨rfl, rfl, rfl, rfl⟩

theorem sRecvBody_control {s t : State} (h : sRecvBody s = .next t) : ControlAfter .sRecv s t := by
  cases hc : s.cstate with
  | sEstablished =>
    simp only [sRecvBody, hc] at h
    obtain rfl := Host.Outcome.next.inj h
    obtain ⟨hf, ht, hr, ho⟩ := serveEstablished_control s
    exact ⟨hf, by simp [asksForSend, hc, ht], fun _ => hr, fun _ => ho⟩
  | _ =>
    simp only [sRecvBody, hc] at h
    obtain rfl := Host.Outcome.next.inj h
    exact ⟨rfl, by simp [asksForSend, hc, sendThen], fun _ => rfl, fun _ => rfl⟩

theorem execBody_control {i : Instr} {s t : State} (h : execBody i s = .next t) : ControlAfter i s t := by
  cases i with
  | assemble => exact assembleBody_control h
  | split => exact splitBody_control h
  | buildData => exact dataPacketBody_control h
  | cSend => exact cSend_control h
  | cRecv => exact cRecvBody_control h
  | sRecv => exact sRecvBody_control h
  | cConnect =>
    obtain rfl := Host.Outcome.next.inj h
    exact ⟨rfl, (Bool.or_true _).symm, fun _ => rfl, nofun⟩
  | cClose =>
    obtain rfl := Host.Outcome.next.inj h
    exact ⟨rfl, (Bool.or_true _).symm, fun _ => rfl, fun _ => rfl⟩
  | buildConnReq | captureOrig =>
    obtain rfl := Host.Outcome.next.inj h
    exact ⟨rfl, (Bool.or_false _).symm, fun _ => rfl, nofun⟩
  | decSeq | decAck | decFlags | hasFlag | rdPkt | rdData | getPlen | getDlen | vConnReq | vClientAck | vServerAck
  | vDiscReq =>
    obtain rfl := Host.Outcome.next.inj h
    exact ⟨rfl, (Bool.or_false _).symm, nofun, fun _ => rfl⟩
  | _ =>
    obtain rfl := Host.Outcome.next.inj h
    exact ⟨rfl, (Bool.or_false _).symm, fun _ => rfl, fun _ => rfl⟩

/-- A command that answers a next state was ignored by a halted block, or entered the fault, or ran its body after TXV was
cleared (R9, R153). -/
theorem exec_next_cases {i : Instr} {s t : State} (h : exec i s = .next t) :
    (s.fault = true ∧ t = s) ∨ (s.fault = false ∧ ∃ e, t = takeFault e s) ∨
      (s.fault = false ∧ ControlAfter i (setTxv s false) t) := by
  obtain ⟨hf, rfl⟩ | ⟨hf, e, -, rfl⟩ | ⟨hf, -, hbody⟩ := command_next_cases (exec_eq_command i s ▸ h)
  · exact .inl ⟨hf, rfl⟩
  · exact .inr (.inl ⟨hf, e, rfl⟩)
  · exact .inr (.inr ⟨hf, execBody_control hbody⟩)

/-- Settles O17: fault entry sets FAULT and leaves TXV, and a body leaves FAULT at 0 and raises the TXV that the prologue
cleared exactly when it asks for a send. -/
theorem txvExactlyWhenASendIsAsked : Obligations.TxvExactlyWhenASendIsAsked := by
  intro i s t hlive h
  obtain ⟨hf, -⟩ | ⟨-, e, rfl⟩ | ⟨-, hfault, htxv, -, -⟩ := exec_next_cases h
  · exact absurd (hlive.symm.trans hf) Bool.false_ne_true
  · exact ⟨nofun, fun _ => rfl⟩
  · exact ⟨fun _ => htxv, fun ht => absurd (hlive.symm.trans (hfault.symm.trans ht)) Bool.false_ne_true⟩

/-- Settles O20: only a body writes RES or ORIG_SEQ, and only the bodies of the commands named for them. -/
theorem resAndOrigSeqChangeOnlyWhereNamed : Obligations.ResAndOrigSeqChangeOnlyWhereNamed := by
  intro i s t h
  obtain ⟨-, rfl⟩ | ⟨-, e, rfl⟩ | ⟨-, -, -, hres, horig⟩ := exec_next_cases h
  · exact ⟨fun _ => rfl, fun _ => rfl⟩
  · exact ⟨fun _ => rfl, fun _ => rfl⟩
  · exact ⟨hres, horig⟩

end Sys2Proof.Machine
end

section
/-! PROOFS. Only the commands that R26 names depend on RND (10_state.md R26). -/

namespace Sys2Proof.Machine

/-- A choice between two results passes what follows on to both. -/
theorem andThen_ite {c : Prop} [Decidable c] (q r : Result) (k : State → Result) :
    andThen (if c then q else r) k = if c then andThen q k else andThen r k :=
  apply_ite (andThen · k) c q r

theorem assembleBody_driveRnd (r : Word) : CommutesWith (driveRnd · r) assembleBody := by
  intro s
  simp only [assembleBody, andThen_ite]
  rfl

theorem dataPacketBody_driveRnd (r : Word) : CommutesWith (driveRnd · r) dataPacketBody :=
  fun s => assembleBody_driveRnd r (setHdr s (setFlags emptyHdr maskPsh))

theorem splitBody_driveRnd (r : Word) : CommutesWith (driveRnd · r) splitBody := by
  intro s
  simp only [splitBody, andThen_ite]
  rfl

theorem cRecvBody_driveRnd (r : Word) : CommutesWith (driveRnd · r) cRecvBody := by
  intro s
  have hsame : (driveRnd s r).cstate = s.cstate := rfl
  cases hc : s.cstate with
  | cEchoWait =>
    simp only [cRecvBody, hsame, hc]
    exact commutesWith_andThen (g := fun t => setCstate (setRes t t.dlen) .cEstablished) (splitBody_driveRnd r)
      (fun _ => rfl) s
  | _ =>
    simp only [cRecvBody, hsame, hc]
    rfl

/-- Beside the five below, the bodies that R26 does not name are plain updates of registers. -/
theorem execBody_driveRnd {i : Instr} (hi : readsRnd i = false) (r : Word) : CommutesWith (driveRnd · r) (execBody i) := by
  cases i with
  | buildConnReq | buildServerAck | buildCloseAck | cConnect | sRecv => cases hi
  | assemble => exact assembleBody_driveRnd r
  | split => exact splitBody_driveRnd r
  | buildData => exact dataPacketBody_driveRnd r
  | cSend => exact commutesWith_andThen (g := sendThen .cEchoWait) (dataPacketBody_driveRnd r) fun _ => rfl
  | cRecv => exact cRecvBody_driveRnd r
  | _ => exact fun _ => rfl

theorem execCheck_driveRnd (i : Instr) (s : State) (r : Word) : execCheck i (driveRnd s r) = execCheck i s := by
  cases i <;> rfl

/-- Settles O23: no check reads RND, and only the bodies of the commands named for it do. -/
theorem onlyNamedCommandsSampleRnd : Obligations.OnlyNamedCommandsSampleRnd := by
  intro i s r hi
  rw [exec_eq_command, exec_eq_command, execCheck_driveRnd]
  exact command_commutesWith (f := (driveRnd · r)) rfl rfl (fun _ => rfl) (execBody_driveRnd hi r)

end Sys2Proof.Machine
end

section
/-! PROOFS. A header accessed by bytes and by 16-bit fields (20_memory.md R50, R51, R65): what a list of byte writes leaves
in PKT, and what SPLIT and ASSEMBLE do when they complete. -/

namespace Sys2Proof.Machine

/-! ### Lists of commands with RND at its level -/

/-- The commands of a list, each with RND at the level `r`. -/
def atRnd (r : Word) (is : List Instr) : List (Instr × Word) := is.map fun i => (i, r)

theorem runCommands_atRnd_cons {i : Instr} {s t : State} (is : List Instr) (h : exec i s = .next t) :
    runCommands (atRnd s.rnd (i :: is)) s = runCommands (atRnd t.rnd is) t := by
  show andThen (exec i s) (runCommands (atRnd s.rnd is)) = _
  rw [h, andThen_of_next, (exec_sameEnvironment h).rnd]

/-! ### Byte writes (R102) -/

/-- WR_PKT of an address inside PKT (R102). -/
theorem exec_wrPkt_inside {s : State} {a : Nat} (v : Byte) (h : s.fault = false) (ha : a < maxPktOf s) :
    exec (.wrPkt (BitVec.ofNat 16 a) v) s = .next (setPkt (setTxv s false) (storeCell s.pkt a v)) := by
  have hidx : (BitVec.ofNat 16 a).toNat = a :=
    BitVec.toNat_ofNat .. ▸ Nat.mod_eq_of_lt (Nat.lt_trans ha (maxPktOf_lt s))
  have hcheck : checkIndex (BitVec.ofNat 16 a) (maxPktOf s) = none := checkIndex_none.2 (by rwa [hidx])
  calc exec (.wrPkt (BitVec.ofNat 16 a) v) s
    _ = .next (setPkt (setTxv s false) (storeCell s.pkt (BitVec.ofNat 16 a).toNat v)) := exec_runs h hcheck
    _ = .next (setPkt (setTxv s false) (storeCell s.pkt a v)) := by rw [hidx]

/-- Byte writes at rising addresses store the string, and clear TXV when there is one; the commands `is` run after them. -/
theorem runCommands_writePkt {s : State} {a : Nat} {vs : List Byte} (is : List Instr) (hf : s.fault = false)
    (hlen : a + vs.length ≤ maxPktOf s) :
    runCommands (atRnd s.rnd (writeCommands .wrPkt a vs ++ is)) s =
      runCommands (atRnd s.rnd is) (setTxv (setPkt s (storeBytes s.pkt a vs)) (s.txv && vs.isEmpty)) := by
  induction vs generalizing a s with
  | nil =>
    rw [List.isEmpty_nil, Bool.and_true]
    rfl
  | cons v vs ih =>
    rw [List.length_cons] at hlen
    have hwr := exec_wrPkt_inside v hf (a := a) (by omega)
    have hrest := ih (s := setPkt (setTxv s false) (storeCell s.pkt a v)) (a := a + 1) hf
      (show a + 1 + vs.length ≤ maxPktOf s by omega)
    calc runCommands (atRnd s.rnd (writeCommands .wrPkt a (v :: vs) ++ is)) s
      _ = runCommands (atRnd s.rnd (writeCommands .wrPkt (a + 1) vs ++ is))
            (setPkt (setTxv s false) (storeCell s.pkt a v)) := runCommands_atRnd_cons _ hwr
      _ = runCommands (atRnd s.rnd is) (setTxv (setPkt s (storeBytes s.pkt a (v :: vs))) false) := hrest
      _ = _ := by
        rw [List.isEmpty_cons, Bool.and_false]

/-! ### Framing commands that complete (R100, R101) -/

theorem exec_assemble_completes {s : State} (hf : s.fault = false) (hlen : s.dlen.toNat ≤ maxDataOf s) :
    ∃ t, exec .assemble s = .next t ∧ Assembled s.hdr s t ∧ t = { s with txv := false, pkt := t.pkt, plen := t.plen } := by
  obtain ⟨t, ht⟩ := assembleBody_runs (s := setTxv s false) hlen
  obtain ⟨-, heq, -⟩ := assembleBody_next ht
  refine ⟨t, (exec_runs hf rfl).trans ht, assembleBody_assembled (s := setTxv s false) ht, ?_⟩
  rw [heq]
  rfl

theorem exec_split_completes {s : State} (hf : s.fault = false) (h5 : 5 ≤ s.plen.toNat)
    (hlen : s.plen.toNat ≤ maxPktOf s) :
    ∃ t, exec .split s = .next t ∧ SplitMade s t ∧
      t = { s with txv := false, hdr := t.hdr, data := t.data, dlen := t.dlen } := by
  obtain ⟨t, ht⟩ := splitBody_runs (s := setTxv s false) hlen
  obtain ⟨-, heq, -⟩ := splitBody_next ht
  refine ⟨t, (exec_runs (i := .split) hf (checkHeader_none.2 h5)).trans ht, splitBody_split (s := setTxv s false) h5 ht, ?_⟩
  rw [heq]
  rfl

/-! ### Fields and bytes of a header -/

theorem zext16_eq_append (v : Byte) : zext16 v = 0#8 ++ v := BitVec.setWidth_eq_append (by decide)

theorem exec_decSeq_live {s : State} (h : s.fault = false) :
    exec .decSeq s = .next (setRes (setTxv s false) (hdrSeq s.hdr)) :=
  exec_runs h rfl

theorem exec_decAck_live {s : State} (h : s.fault = false) :
    exec .decAck s = .next (setRes (setTxv s false) (hdrAck s.hdr)) :=
  exec_runs h rfl

theorem exec_encSeq_live {s : State} (v : Word) (h : s.fault = false) :
    exec (.encSeq v) s = .next (setHdr (setTxv s false) (setSeq s.hdr v)) :=
  exec_runs h rfl

theorem exec_encAck_live {s : State} (v : Word) (h : s.fault = false) :
    exec (.encAck v) s = .next (setHdr (setTxv s false) (setAck s.hdr v)) :=
  exec_runs h rfl

/-- RD_PKT of an address inside PKT leaves its byte in RES (R103). -/
theorem exec_rdPkt_res {t : State} {a : Nat} {v : Byte} (hf : t.fault = false) (ha : a < maxPktOf t)
    (hv : readPkt t a = v) : ∃ u, exec (.rdPkt (BitVec.ofNat 16 a)) t = .next u ∧ u.res = 0#8 ++ v :=
  ⟨_, exec_rdPkt_inside hf ha, by rw [setRes_res, hv, zext16_eq_append]⟩

/-- Five byte writes and SPLIT: the five bytes become the header (R65, R101, R102). -/
theorem runCommands_writeHeader_split {s : State} (h : Header) (hf : s.fault = false) (h5 : 5 ≤ s.plen.toNat)
    (hlen : s.plen.toNat ≤ maxPktOf s) :
    ∃ t, runCommands (atRnd s.rnd (writeCommands .wrPkt 0 (hdrBytes h) ++ [.split])) s = .next t ∧ t.fault = false ∧
      t.hdr = h := by
  obtain ⟨t, ht, ⟨hhdr, -⟩, heq⟩ :=
    exec_split_completes (s := setTxv (setPkt s (storeBytes s.pkt 0 (hdrBytes h))) false) hf h5 hlen
  refine ⟨t, ?_, ?_, ?_⟩
  · calc runCommands (atRnd s.rnd (writeCommands .wrPkt 0 (hdrBytes h) ++ [.split])) s
      _ = runCommands (atRnd s.rnd [.split]) (setTxv (setPkt s (storeBytes s.pkt 0 (hdrBytes h))) (s.txv && false)) :=
        runCommands_writePkt _ hf (by simpa using five_le_maxPktOf s)
      _ = .next t := by
        rw [Bool.and_false]
        exact runCommands_atRnd_cons [] ht
  · rw [heq]
    exact hf
  · rw [hhdr]
    exact header_stored (s := s) (vs := []) (by simp)

/-- ENC_SEQ, ENC_ACK and ASSEMBLE: PKT begins with the header that holds the two fields (R65, R90, R92, R100). -/
theorem runCommands_encodeFields_assemble {s : State} (v w : Word) (hf : s.fault = false) (hlen : s.dlen.toNat ≤ maxDataOf s) :
    ∃ t, runCommands (atRnd s.rnd [.encSeq v, .encAck w, .assemble]) s = .next t ∧ t.fault = false ∧
      headerInPkt t = setAck (setSeq s.hdr v) w := by
  obtain ⟨t, ht, ⟨hhdr, -⟩, heq⟩ :=
    exec_assemble_completes (s := setHdr (setTxv s false) (setAck (setSeq s.hdr v) w)) hf hlen
  refine ⟨t, ?_, ?_, hhdr⟩
  · calc runCommands (atRnd s.rnd [.encSeq v, .encAck w, .assemble]) s
      _ = runCommands (atRnd s.rnd [.encAck w, .assemble]) (setHdr (setTxv s false) (setSeq s.hdr v)) :=
        runCommands_atRnd_cons _ (exec_encSeq_live v hf)
      _ = runCommands (atRnd s.rnd [.assemble]) (setHdr (setTxv s false) (setAck (setSeq s.hdr v) w)) :=
        runCommands_atRnd_cons _ (exec_encAck_live w hf)
      _ = .next t := runCommands_atRnd_cons [] ht
  · rw [heq]
    exact hf

/-- Settles O39: SPLIT takes into HDR the bytes that were written, ASSEMBLE puts into PKT the header that was encoded, and
both lie low byte first. -/
theorem mixedWidthAccessIsLittleEndian : Obligations.MixedWidthAccessIsLittleEndian := by
  intro s hinv hf
  constructor
  · intro b0 b1 b2 b3 b4 h5
    obtain ⟨t, ht, hft, hhdr⟩ := runCommands_writeHeader_split ⟨b0, b1, b2, b3, b4⟩ hf h5 hinv.plenFits
    refine ⟨t, ht, ⟨_, exec_decSeq_live hft, ?_⟩, ⟨_, exec_decAck_live hft, ?_⟩⟩
    · rw [setRes_res, hhdr]
      rfl
    · rw [setRes_res, hhdr]
      rfl
  · intro v w
    obtain ⟨t, ht, hft, hhdr⟩ := runCommands_encodeFields_assemble v w hf hinv.dlenFits
    have hinside {a : Nat} (ha : a < 5) : a < maxPktOf t := Nat.lt_of_lt_of_le ha (five_le_maxPktOf t)
    exact ⟨t, ht, exec_rdPkt_res hft (hinside (by decide)) (congrArg Header.seqLo hhdr),
      exec_rdPkt_res hft (hinside (by decide)) (congrArg Header.seqHi hhdr),
      exec_rdPkt_res hft (hinside (by decide)) (congrArg Header.ackLo hhdr),
      exec_rdPkt_res hft (hinside (by decide)) (congrArg Header.ackHi hhdr)⟩

end Sys2Proof.Machine
end

section
/-! PROOFS. The decoder against the encoder and against the opcode map (30_encoding.md R71 to R78). The decoder's match is
read once, as a list of rows; each round trip is then a fact about the format of one row. -/

namespace Sys2Proof.Machine

/-! ### The fields of a word (R71, R72) -/

theorem opcodeField_append_24 (w : CmdWord) : opcodeField w ++ w.extractLsb' 0 24 = w :=
  (BitVec.extractLsb'_append_extractLsb'_eq_extractLsb' rfl).trans BitVec.extractLsb'_eq_self

theorem opcodeField_append_8_16 (w : CmdWord) : opcodeField w ++ w.extractLsb' 16 8 ++ imm16Field w = w := by
  rw [opcodeField, imm16Field, BitVec.extractLsb'_append_extractLsb'_eq_extractLsb' (show 24 = 16 + 8 from rfl),
    BitVec.extractLsb'_append_extractLsb'_eq_extractLsb' (show 16 = 0 + 16 from rfl)]
  exact BitVec.extractLsb'_eq_self

theorem opcodeField_append_16_8 (w : CmdWord) : opcodeField w ++ idx16Field w ++ low8Field w = w := by
  rw [opcodeField, idx16Field, low8Field, BitVec.extractLsb'_append_extractLsb'_eq_extractLsb' (show 24 = 8 + 16 from rfl),
    BitVec.extractLsb'_append_extractLsb'_eq_extractLsb' (show 8 = 0 + 8 from rfl)]
  exact BitVec.extractLsb'_eq_self

theorem opcodeField_eq_iff (w : CmdWord) (op : Byte) : opcodeField w = op ↔ w >>> 24 = op.zeroExtend 32 := by
  have hw := w.isLt
  simp only [opcodeField, ← BitVec.toNat_inj, BitVec.extractLsb'_toNat, BitVec.toNat_ushiftRight, BitVec.zeroExtend,
    BitVec.toNat_setWidth, Nat.shiftRight_eq_div_pow]
  omega

/-- The word whose bits `start` to `start + len - 1` are 1. -/
def fieldMask (start len : Nat) : CmdWord := (BitVec.allOnes len).setWidth 32 <<< start

theorem fieldMask_getLsbD {start len k : Nat} (h : start + len ≤ 32) :
    (fieldMask start len).getLsbD k = decide (start ≤ k ∧ k < start + len) := by
  simp only [fieldMask, BitVec.getLsbD_shiftLeft, BitVec.getLsbD_setWidth, BitVec.getLsbD_allOnes, ← decide_not,
    ← Bool.decide_and]
  exact decide_eq_decide.2 (by omega)

theorem and_fieldMask_eq_zero_iff {w : CmdWord} {start len : Nat} (h : start + len ≤ 32) :
    w &&& fieldMask start len = 0#32 ↔ w.extractLsb' start len = 0#len := by
  constructor
  · intro hw
    ext k hk
    have hbit := congrArg (BitVec.getLsbD · (start + k)) hw
    simpa [fieldMask_getLsbD h, hk] using hbit
  · intro hw
    refine BitVec.eq_of_getLsbD_eq fun k _ => ?_
    have hbit := congrArg (BitVec.getLsbD · (k - start)) hw
    by_cases hk : start ≤ k ∧ k < start + len
    · have hin : k - start < len := by omega
      simpa [fieldMask_getLsbD h, hk, hin] using hbit
    · simp [fieldMask_getLsbD h, hk]

/-- The lowest must-be-zero bit of a format (R71). -/
def zeroStart : Format → Nat
  | .n | .b | .x => 0
  | .i => 16
  | .m => 8

/-- The number of must-be-zero bits of a format, which lie side by side (R71). -/
def zeroLen : Format → Nat
  | .n => 24
  | .i | .x => 8
  | .m => 16
  | .b => 0

theorem and_mustBeZero_eq_zero_iff (f : Format) (w : CmdWord) :
    w &&& mustBeZero f = 0#32 ↔ w.extractLsb' (zeroStart f) (zeroLen f) = 0 := by
  have hmask : mustBeZero f = fieldMask (zeroStart f) (zeroLen f) := by cases f <;> rfl
  rw [hmask]
  exact and_fieldMask_eq_zero_iff (by cases f <;> decide)

theorem ite_ok_iff {p : Prop} [Decidable p] {e : Reject} {i j : Instr} :
    (if p then Except.ok i else .error e) = .ok j ↔ p ∧ i = j := by
  split <;> simp_all

/-! ### A row of the opcode map, as the decoder reads it -/

/-- A command with its operands left open, by its format (R71). -/
inductive CommandForm where
  | n (c : Instr)
  | i (c : Word → Instr)
  | m (c : Byte → Instr)
  | b (c : Word → Byte → Instr)
  | x (c : Word → Instr)

namespace CommandForm

/-- The form's format (R71). -/
def format : CommandForm → Format
  | n _ => .n
  | i _ => .i
  | m _ => .m
  | b _ => .b
  | x _ => .x

/-- The decoder of the form's format. -/
def decode : CommandForm → CmdWord → Except Reject Instr
  | n c, w => decodeN w c
  | i c, w => decodeI w c
  | m c, w => decodeM w c
  | b c, w => decodeB w c
  | x c, w => decodeX w c

/-- The command with the operands that the word holds (R73 to R75). -/
def read : CommandForm → CmdWord → Instr
  | n c, _ => c
  | i c, w => c (imm16Field w)
  | m c, w => c (low8Field w)
  | b c, w => c (idx16Field w) (low8Field w)
  | x c, w => c (idx16Field w)

/-- Every command of this form is encoded with opcode `op`, in the form's format. -/
def EncodesWith (op : Byte) : CommandForm → Prop
  | n c => encode c = encodeN op
  | i c => ∀ imm, encode (c imm) = encodeI op imm
  | m c => ∀ mask, encode (c mask) = encodeM op mask
  | b c => ∀ idx val, encode (c idx val) = encodeB op idx val
  | x c => ∀ idx, encode (c idx) = encodeX op idx

/-- A form's decoder tests the must-be-zero bits of R71, and reads the operands. -/
theorem decode_ok_iff {f : CommandForm} {w : CmdWord} {j : Instr} :
    f.decode w = .ok j ↔ w.extractLsb' (zeroStart f.format) (zeroLen f.format) = 0 ∧ f.read w = j := by
  cases f with
  | b c => exact ⟨fun h => ⟨BitVec.of_length_zero, Except.ok.inj h⟩, fun h => congrArg Except.ok h.2⟩
  | _ => exact ite_ok_iff

/-- When the must-be-zero bits are 0, a word is its opcode and its operands, and nothing else. -/
theorem encode_read {f : CommandForm} {w : CmdWord} (henc : f.EncodesWith (opcodeField w))
    (hz : w.extractLsb' (zeroStart f.format) (zeroLen f.format) = 0) : encode (f.read w) = w := by
  cases f with
  | n c =>
    have hw := opcodeField_append_24 w
    rw [show w.extractLsb' 0 24 = 0#24 from hz] at hw
    exact henc.trans hw
  | i c =>
    have hw := opcodeField_append_8_16 w
    rw [show w.extractLsb' 16 8 = 0#8 from hz] at hw
    exact (henc _).trans hw
  | m c =>
    have hw := opcodeField_append_16_8 w
    rw [show idx16Field w = 0#16 from hz] at hw
    exact (henc _).trans hw
  | b c => exact (henc _ _).trans (opcodeField_append_16_8 w)
  | x c =>
    have hw := opcodeField_append_16_8 w
    rw [show low8Field w = 0#8 from hz] at hw
    exact (henc _).trans hw

end CommandForm

/-- The 37 rows of the decoder (R76). -/
def commandForms : List (Byte × CommandForm) :=
  [(0x00, .n .nop), (0x10, .i .encSeq), (0x11, .n .decSeq), (0x12, .i .encAck), (0x13, .n .decAck),
   (0x14, .m .setFlag), (0x15, .m .clrFlag), (0x16, .m .hasFlag), (0x17, .n .clrHdr), (0x18, .n .decFlags),
   (0x20, .n .assemble), (0x21, .n .split), (0x22, .b .wrPkt), (0x23, .x .rdPkt), (0x24, .b .wrData),
   (0x25, .x .rdData), (0x26, .i .setPlen), (0x27, .n .getPlen), (0x28, .i .setDlen), (0x29, .n .getDlen),
   (0x30, .n .buildConnReq), (0x31, .n .buildDiscReq), (0x32, .n .buildData), (0x33, .n .buildClientAck),
   (0x34, .n .buildServerAck), (0x35, .n .buildCloseAck), (0x40, .n .vConnReq), (0x41, .n .vClientAck),
   (0x42, .n .vServerAck), (0x43, .n .vDiscReq), (0x44, .n .captureOrig), (0x50, .n .cConnect), (0x51, .n .cRecv),
   (0x52, .n .cSend), (0x53, .n .cClose), (0x58, .n .sRecv), (0x5F, .n .abort)]

theorem commandForms_encodesWith : ∀ r ∈ commandForms, r.2.EncodesWith r.1 := by
  simp [commandForms, CommandForm.EncodesWith, encode]

/-- Opcodes and formats are those of the spec's table. -/
theorem opcodeTable_eq_commandForms :
    opcodeTable.map (fun r => (r.opcode, r.format)) = commandForms.map fun r => (r.1, r.2.format) := rfl

/-- The decoder's match, row by row (R76). -/
theorem decode_of_mem_commandForms {w : CmdWord} : ∀ r ∈ commandForms, opcodeField w = r.1 → decode w = r.2.decode w := by
  intro r hr hop
  rw [decode, hop]
  clear hop
  revert r
  unfold commandForms
  repeat refine List.forall_mem_cons.2 ⟨rfl, ?_⟩
  exact List.forall_mem_nil _

/-- Every other opcode is rejected as unassigned (R78). -/
theorem opcode_mem_of_decode_ok {w : CmdWord} {i : Instr} (h : decode w = .ok i) :
    opcodeField w ∈ commandForms.map Prod.fst := by
  have hop : opcodeField w = BitVec.ofNat 8 (opcodeField w).toNat := by simp
  rw [hop]
  unfold decode at h
  split at h
  case h_38 => cases h
  all_goals
    rename_i hk
    rw [hk]
    decide

/-- What a word decodes to, by the row of its opcode (R76). -/
theorem decode_ok_iff {w : CmdWord} {i : Instr} :
    decode w = .ok i ↔ ∃ r ∈ commandForms, opcodeField w = r.1 ∧ r.2.decode w = .ok i := by
  constructor
  · intro h
    obtain ⟨r, hr, hop⟩ := List.mem_map.1 (opcode_mem_of_decode_ok h)
    exact ⟨r, hr, hop.symm, decode_of_mem_commandForms r hr hop.symm ▸ h⟩
  · rintro ⟨r, hr, hop, h⟩
    exact (decode_of_mem_commandForms r hr hop).trans h

theorem legalWord_iff {w : CmdWord} :
    legalWord w = true ↔ ∃ r ∈ commandForms, opcodeField w = r.1 ∧ w &&& mustBeZero r.2.format = 0#32 := by
  have hrows : legalWord w = (opcodeTable.map fun r => (r.opcode, r.format)).any fun p =>
      (w >>> 24 == p.1.zeroExtend 32) && (w &&& mustBeZero p.2 == 0#32) := by
    rw [List.any_map]
    rfl
  rw [hrows, opcodeTable_eq_commandForms, List.any_map]
  simp [opcodeField_eq_iff]

/-! ### The obligations of 30_encoding.md on decoding -/

/-- Settles O2, by the round trips of the single commands. -/
theorem decodeOfEncodeIsTheCommand : Obligations.DecodeOfEncodeIsTheCommand := decode_encode

/-- Settles O3: the row of the word's opcode gives its encoding. -/
theorem encodeOfDecodeIsTheWord : Obligations.EncodeOfDecodeIsTheWord := by
  intro w i h
  obtain ⟨⟨op, f⟩, hr, hop, hdec⟩ := decode_ok_iff.1 h
  obtain ⟨hzero, rfl⟩ := CommandForm.decode_ok_iff.1 hdec
  exact CommandForm.encode_read (hop ▸ commandForms_encodesWith _ hr) hzero

/-- Settles O4: the decoder's rows are the spec's, and a row accepts a word exactly when its must-be-zero bits are 0. -/
theorem decoderAcceptsExactlyTheOpcodeMap : Obligations.DecoderAcceptsExactlyTheOpcodeMap := by
  intro w
  rw [legalWord_iff]
  constructor
  · rintro ⟨i, h⟩
    obtain ⟨r, hr, hop, hdec⟩ := decode_ok_iff.1 h
    exact ⟨r, hr, hop, (and_mustBeZero_eq_zero_iff _ w).2 (CommandForm.decode_ok_iff.1 hdec).1⟩
  · rintro ⟨r, hr, hop, hzero⟩
    exact ⟨r.2.read w, decode_ok_iff.2
      ⟨r, hr, hop, CommandForm.decode_ok_iff.2 ⟨(and_mustBeZero_eq_zero_iff _ w).1 hzero, rfl⟩⟩⟩

theorem runWord_of_decode_ne_ok {w : CmdWord} (h : ¬ ∃ i, decode w = .ok i) (s : State) :
    runWord w s = illegalCommand s := by
  cases hw : decode w with
  | ok i => exact absurd ⟨i, hw⟩ h
  | error e => rw [runWord, hw]

/-- Settles O5: such a word does not decode, and the prologue enters the fault. -/
theorem illegalWordRaisesIllegalCommand : Obligations.IllegalWordRaisesIllegalCommand := by
  intro w s hw hf
  have hdec : ¬ ∃ i, decode w = .ok i := fun h =>
    Bool.false_ne_true (hw.symm.trans ((decoderAcceptsExactlyTheOpcodeMap w).1 h))
  exact (runWord_of_decode_ne_ok hdec s).trans (command_error hf)

/-- Settles O1: each word runs through the decoder. -/
theorem specWordsDecode : Obligations.SpecWordsDecode :=
  ⟨rfl, rfl, rfl, rfl, rfl, rfl, rfl, rfl, rfl, rfl⟩

end Sys2Proof.Machine
end

section
/-! PROOFS. DELIVER and LOAD_DATA (30_encoding.md R83): a length, then byte writes from address 0. -/

namespace Sys2Proof.Machine

theorem maxDataOf_lt (s : State) : maxDataOf s < 2 ^ 16 := Nat.lt_trans s.maxData.isLt (by decide)

theorem toNat_ofNat_of_lt {n : Nat} (h : n < 2 ^ 16) : (BitVec.ofNat 16 n).toNat = n :=
  (BitVec.toNat_ofNat n 16).trans (Nat.mod_eq_of_lt h)

/-- Reads that agree with a byte string give the string. -/
theorem bytesFrom_eq_of_reads {rd : Nat → Byte} {a : Nat} {vs : List Byte}
    (h : ∀ k (hk : k < vs.length), rd (a + k) = vs[k]) : bytesFrom rd a vs.length = vs :=
  List.ext_getElem (by simp) fun k _ hk => (bytesFrom_getElem rd a _).trans (h k hk)

/-! ### The commands of the expansions, when they complete -/

/-- SET_PLEN of a length that fits in PKT (R106). -/
theorem exec_setPlen_fits {s : State} {n : Nat} (hf : s.fault = false) (hn : n ≤ maxPktOf s) :
    exec (.setPlen (BitVec.ofNat 16 n)) s = .next (setPlen (setTxv s false) (BitVec.ofNat 16 n)) := by
  have hlen : (BitVec.ofNat 16 n).toNat = n := toNat_ofNat_of_lt (Nat.lt_of_le_of_lt hn (maxPktOf_lt s))
  exact exec_runs (i := .setPlen _) hf (checkLength_none.2 (by rwa [hlen]))

/-- SET_DLEN of a length that fits in DATA (R108). -/
theorem exec_setDlen_fits {s : State} {n : Nat} (hf : s.fault = false) (hn : n ≤ maxDataOf s) :
    exec (.setDlen (BitVec.ofNat 16 n)) s = .next (setDlen (setTxv s false) (BitVec.ofNat 16 n)) := by
  have hlen : (BitVec.ofNat 16 n).toNat = n := toNat_ofNat_of_lt (Nat.lt_of_le_of_lt hn (maxDataOf_lt s))
  exact exec_runs (i := .setDlen _) hf (checkLength_none.2 (by rwa [hlen]))

/-- WR_DATA of an address inside DATA (R104). -/
theorem exec_wrData_inside {s : State} {a : Nat} (v : Byte) (hf : s.fault = false) (ha : a < maxDataOf s) :
    exec (.wrData (BitVec.ofNat 16 a) v) s = .next (setData (setTxv s false) (storeCell s.data a v)) := by
  have hidx : (BitVec.ofNat 16 a).toNat = a := toNat_ofNat_of_lt (Nat.lt_trans ha (maxDataOf_lt s))
  calc exec (.wrData (BitVec.ofNat 16 a) v) s
    _ = .next (setData (setTxv s false) (storeCell s.data (BitVec.ofNat 16 a).toNat v)) :=
      exec_runs (i := .wrData _ v) hf (checkIndex_none.2 (by rwa [hidx]))
    _ = .next (setData (setTxv s false) (storeCell s.data a v)) := by rw [hidx]

/-- Byte writes at rising addresses of DATA store the string, once TXV is 0. -/
theorem runCommands_writeData {s : State} {a : Nat} {vs : List Byte} (hf : s.fault = false) (htxv : s.txv = false)
    (hlen : a + vs.length ≤ maxDataOf s) :
    runCommands (atRnd s.rnd (writeCommands .wrData a vs)) s = .next (setData s (storeBytes s.data a vs)) := by
  induction vs generalizing a s with
  | nil => rfl
  | cons v vs ih =>
    rw [List.length_cons] at hlen
    have hs : setTxv s false = s := by rw [← htxv]; rfl
    have hwr : exec (.wrData (BitVec.ofNat 16 a) v) s = .next (setData s (storeCell s.data a v)) := by
      rw [exec_wrData_inside v hf (by omega), hs]
    calc runCommands (atRnd s.rnd (writeCommands .wrData a (v :: vs))) s
      _ = runCommands (atRnd s.rnd (writeCommands .wrData (a + 1) vs)) (setData s (storeCell s.data a v)) :=
        runCommands_atRnd_cons _ hwr
      _ = .next (setData s (storeBytes s.data a (v :: vs))) :=
        ih (s := setData s (storeCell s.data a v)) hf htxv (show a + 1 + vs.length ≤ maxDataOf s by omega)

/-! ### The expansions -/

/-- Everything DELIVER does. -/
theorem deliver_fits {s : State} {bytes : List Byte} (hf : s.fault = false) (hlen : bytes.length ≤ maxPktOf s) :
    deliver bytes s = .next { s with txv := false, pkt := storeBytes s.pkt 0 bytes, plen := BitVec.ofNat 16 bytes.length } :=
  calc deliver bytes s
    _ = runCommands (atRnd s.rnd (writeCommands .wrPkt 0 bytes))
          (setPlen (setTxv s false) (BitVec.ofNat 16 bytes.length)) :=
      runCommands_atRnd_cons _ (exec_setPlen_fits hf hlen)
    _ = runCommands (atRnd s.rnd (writeCommands .wrPkt 0 bytes ++ []))
          (setPlen (setTxv s false) (BitVec.ofNat 16 bytes.length)) := by rw [List.append_nil]
    _ = .next { s with txv := false, pkt := storeBytes s.pkt 0 bytes, plen := BitVec.ofNat 16 bytes.length } :=
      runCommands_writePkt (s := setPlen (setTxv s false) (BitVec.ofNat 16 bytes.length)) [] hf
        (show 0 + bytes.length ≤ maxPktOf s by omega)

/-- Everything LOAD_DATA does. -/
theorem loadData_fits {s : State} {bytes : List Byte} (hf : s.fault = false) (hlen : bytes.length ≤ maxDataOf s) :
    runPseudo (.loadData bytes) s =
      .next { s with txv := false, data := storeBytes s.data 0 bytes, dlen := BitVec.ofNat 16 bytes.length } :=
  calc runPseudo (.loadData bytes) s
    _ = runCommands (atRnd s.rnd (writeCommands .wrData 0 bytes))
          (setDlen (setTxv s false) (BitVec.ofNat 16 bytes.length)) :=
      runCommands_atRnd_cons _ (exec_setDlen_fits hf hlen)
    _ = .next { s with txv := false, data := storeBytes s.data 0 bytes, dlen := BitVec.ofNat 16 bytes.length } :=
      runCommands_writeData (s := setDlen (setTxv s false) (BitVec.ofNat 16 bytes.length)) hf rfl
        (show 0 + bytes.length ≤ maxDataOf s by omega)

/-- Settles O56: the writes fill PKT[0..PLEN-1], and keep what lies beyond. -/
theorem deliverPlacesTheDatagram : Obligations.DeliverPlacesTheDatagram := by
  intro s bytes hf hlen
  have hplen := toNat_ofNat_of_lt (Nat.lt_of_le_of_lt hlen (maxPktOf_lt s))
  refine ⟨_, deliver_fits hf hlen, ?_, hplen, fun a ha => ?_, rfl⟩
  · rw [payload, hplen]
    exact bytesFrom_eq_of_reads fun k hk => readPkt_storeBytes_inside (s := s) rfl hk
  · exact readPkt_storeBytes_after (s := s) (a := 0) rfl rfl (by omega)

/-- Settles O57: the writes fill DATA[0..DLEN-1], and keep what lies beyond. -/
theorem loadDataPlacesTheSegment : Obligations.LoadDataPlacesTheSegment := by
  intro s bytes hf hlen
  have hdlen := toNat_ofNat_of_lt (Nat.lt_of_le_of_lt hlen (maxDataOf_lt s))
  refine ⟨_, loadData_fits hf hlen, ?_, hdlen, fun a ha => ?_, rfl⟩
  · rw [dataSegment, hdlen]
    exact bytesFrom_eq_of_reads fun k hk => readData_storeBytes_inside (s := s) rfl hk
  · exact readData_storeBytes_after (s := s) (a := 0) rfl rfl (by omega)

end Sys2Proof.Machine
end

section
/-! PROOFS. The header codec commands (40_header_codec.md R90 to R99): what a word of each format runs, what each command
does in a live block, and the codec laws. -/

namespace Sys2Proof.Machine

/-! ### What a word runs, by the row of its opcode (R71, R76, R77) -/

/-- A word of this row runs its command when the must-be-zero bits of the format are 0, and else enters the fault. -/
theorem runWord_of_mem_commandForms {r : Byte × CommandForm} (hr : r ∈ commandForms) {w : CmdWord}
    (hop : opcodeField w = r.1) (s : State) :
    (w.extractLsb' (zeroStart r.2.format) (zeroLen r.2.format) = 0 → runWord w s = exec (r.2.read w) s) ∧
    (w.extractLsb' (zeroStart r.2.format) (zeroLen r.2.format) ≠ 0 → s.fault = false →
      runWord w s = .next (takeFault .illegalCommand s)) := by
  have hdec : decode w = r.2.decode w := decode_of_mem_commandForms r hr hop
  constructor
  · intro hzero
    exact runWord_of_decode (hdec.trans (CommandForm.decode_ok_iff.2 ⟨hzero, rfl⟩)) s
  · intro hzero hf
    have hrej : ¬ ∃ i, decode w = .ok i := fun ⟨i, hi⟩ => hzero (CommandForm.decode_ok_iff.1 (hdec.symm.trans hi)).1
    exact (runWord_of_decode_ne_ok hrej s).trans (command_error hf)

theorem runsAsN_of_mem {op : Byte} {i : Instr} (h : (op, .n i) ∈ commandForms) : RunsAsN op i :=
  fun s _ hop => runWord_of_mem_commandForms h hop s

theorem runsAsI_of_mem {op : Byte} {c : Word → Instr} (h : (op, .i c) ∈ commandForms) : RunsAsI op c :=
  fun s _ hop => runWord_of_mem_commandForms h hop s

theorem runsAsM_of_mem {op : Byte} {c : Byte → Instr} (h : (op, .m c) ∈ commandForms) : RunsAsM op c :=
  fun s _ hop => runWord_of_mem_commandForms h hop s

/-! ### The flags byte, bit by bit (R94 to R96) -/

@[simp] theorem orMask_getLsbD (flags mask : Byte) (k : Nat) :
    (orMask flags mask).getLsbD k = (flags.getLsbD k || mask.getLsbD k) :=
  BitVec.getLsbD_or

/-- The NOT of R95 is over 8 bits, and above them both sides are 0. -/
@[simp] theorem clearMask_getLsbD (flags mask : Byte) (k : Nat) :
    (clearMask flags mask).getLsbD k = (flags.getLsbD k && !mask.getLsbD k) := by
  rw [clearMask, BitVec.getLsbD_and, BitVec.getLsbD_not]
  by_cases hk : k < 8
  · rw [decide_eq_true hk, Bool.true_and]
  · rw [BitVec.getLsbD_of_ge flags k (by omega), Bool.false_and, Bool.false_and]

theorem and_eq_zero_iff_getLsbD (x y : Byte) :
    x &&& y = 0#8 ↔ ∀ k, ¬ (x.getLsbD k = true ∧ y.getLsbD k = true) := by
  constructor
  · intro h k
    have hbit := congrArg (BitVec.getLsbD · k) h
    simpa using hbit
  · intro h
    refine BitVec.eq_of_getLsbD_eq fun k _ => ?_
    simpa using h k

theorem anyMask_iff (flags mask : Byte) :
    anyMask flags mask = true ↔ ∃ k, flags.getLsbD k = true ∧ mask.getLsbD k = true := by
  rw [anyMask, decide_eq_true_iff, ne_eq, and_eq_zero_iff_getLsbD, Classical.not_forall_not]

theorem clearMask_and_mask (flags mask : Byte) : clearMask flags mask &&& mask = 0#8 :=
  (and_eq_zero_iff_getLsbD _ _).2 fun k => by simp

/-- Clear after set restores a byte that has no masked bit set. -/
theorem clearMask_orMask {flags mask : Byte} (h : flags &&& mask = 0#8) : clearMask (orMask flags mask) mask = flags := by
  refine BitVec.eq_of_getLsbD_eq fun k _ => ?_
  have hk := (and_eq_zero_iff_getLsbD _ _).1 h k
  rw [clearMask_getLsbD, orMask_getLsbD]
  cases hm : mask.getLsbD k with
  | false => simp
  | true => simpa [hm] using hk

/-! ### The commands in a live block (R94 to R98) -/

theorem exec_setFlag_live {s : State} (mask : Byte) (hf : s.fault = false) :
    exec (.setFlag mask) s = .next (setHdr (setTxv s false) (setFlags s.hdr (orMask s.hdr.flags mask))) :=
  exec_runs hf rfl

theorem exec_clrFlag_live {s : State} (mask : Byte) (hf : s.fault = false) :
    exec (.clrFlag mask) s = .next (setHdr (setTxv s false) (setFlags s.hdr (clearMask s.hdr.flags mask))) :=
  exec_runs hf rfl

theorem exec_hasFlag_live {s : State} (mask : Byte) (hf : s.fault = false) :
    exec (.hasFlag mask) s = .next (setRes (setTxv s false) (boolWord (anyMask s.hdr.flags mask))) :=
  exec_runs hf rfl

theorem exec_clrHdr_live {s : State} (hf : s.fault = false) :
    exec .clrHdr s = .next (setHdr (setTxv s false) emptyHdr) :=
  exec_runs hf rfl

theorem exec_decFlags_live {s : State} (hf : s.fault = false) :
    exec .decFlags s = .next (setRes (setTxv s false) (0#8 ++ s.hdr.flags)) := by
  rw [← zext16_eq_append]
  exact exec_runs hf rfl

/-- The expansion of HDR makes the header of its three operands (R83). -/
theorem runPseudo_hdr_live {s : State} (seq ack : Word) (flags : Byte) (hf : s.fault = false) :
    runPseudo (.hdr seq ack flags) s =
      .next (setHdr (setTxv s false) (setFlags (setAck (setSeq emptyHdr seq) ack) flags)) := by
  have hset : orMask emptyHdr.flags flags = flags := BitVec.zero_or
  calc runPseudo (.hdr seq ack flags) s
    _ = runCommands (atRnd s.rnd [.encSeq seq, .encAck ack, .setFlag flags]) (setHdr (setTxv s false) emptyHdr) :=
      runCommands_atRnd_cons _ (exec_clrHdr_live hf)
    _ = runCommands (atRnd s.rnd [.encAck ack, .setFlag flags]) (setHdr (setTxv s false) (setSeq emptyHdr seq)) :=
      runCommands_atRnd_cons _ (exec_encSeq_live seq hf)
    _ = runCommands (atRnd s.rnd [.setFlag flags]) (setHdr (setTxv s false) (setAck (setSeq emptyHdr seq) ack)) :=
      runCommands_atRnd_cons _ (exec_encAck_live ack hf)
    _ = .next (setHdr (setTxv s false)
          (setFlags (setAck (setSeq emptyHdr seq) ack) (orMask emptyHdr.flags flags))) :=
      runCommands_atRnd_cons [] (exec_setFlag_live flags hf)
    _ = .next (setHdr (setTxv s false) (setFlags (setAck (setSeq emptyHdr seq) ack) flags)) := by rw [hset]

/-! ### The commands in any block -/

/-- A command without a check that writes HDR alone leaves it in a halted block and rewrites it in a live one. -/
theorem exec_hdr_cases {i : Instr} {f : Header → Header} {s t : State} (hc : execCheck i s = none)
    (hb : ∀ u, execBody i u = .next (setHdr u (f u.hdr))) (h : exec i s = .next t) : t.hdr = s.hdr ∨ t.hdr = f s.hdr := by
  obtain ⟨-, rfl⟩ | ⟨-, e, he, -⟩ | ⟨-, -, hbody⟩ := command_next_cases (exec_eq_command i s ▸ h)
  · exact .inl rfl
  · cases hc.symm.trans he
  · obtain rfl := Host.Outcome.next.inj ((hb _).symm.trans hbody)
    exact .inr rfl

/-- Each flag command writes the flags byte alone, and in it the masked bits alone. -/
theorem exec_flag_keeps_unmasked {s t : State} {mask : Byte}
    (h : exec (.setFlag mask) s = .next t ∨ exec (.clrFlag mask) s = .next t) :
    ∃ flags, t.hdr = setFlags s.hdr flags ∧ ∀ k, mask.getLsbD k = false → flags.getLsbD k = s.hdr.flags.getLsbD k := by
  have hcases : t.hdr = s.hdr ∨ t.hdr = setFlags s.hdr (orMask s.hdr.flags mask) ∨
      t.hdr = setFlags s.hdr (clearMask s.hdr.flags mask) := by
    obtain hset | hclr := h
    · exact (exec_hdr_cases (f := fun h => setFlags h (orMask h.flags mask)) rfl (fun _ => rfl) hset).imp_right .inl
    · exact (exec_hdr_cases (f := fun h => setFlags h (clearMask h.flags mask)) rfl (fun _ => rfl) hclr).imp_right .inr
  obtain hkept | hset | hclr := hcases
  · exact ⟨s.hdr.flags, hkept, fun _ _ => rfl⟩
  · exact ⟨_, hset, fun k hk => by simp [hk]⟩
  · exact ⟨_, hclr, fun k hk => by simp [hk]⟩

/-! ### The obligations -/

/-- Settles O32: HDR's expansion makes the header of its operands, the encoders write two bytes each, the flag commands
write the masked bits, and clear after set is a law of the two masks. -/
theorem codecLaws : Obligations.CodecLaws := by
  refine ⟨fun s seq ack flags hf => ?_, fun s t v h => ?_, fun s t v h => ?_, fun s t mask h => ?_,
    fun s t u mask hf hset hclr => ?_⟩
  · refine ⟨_, runPseudo_hdr_live seq ack flags hf, ⟨_, exec_decSeq_live hf, ?_⟩, ⟨_, exec_decAck_live hf, ?_⟩,
      ⟨_, exec_decFlags_live hf, rfl⟩⟩
    · simp
    · simp
  · obtain heq | heq := exec_hdr_cases (f := (setSeq · v)) rfl (fun _ => rfl) h <;> rw [heq] <;> exact ⟨rfl, rfl, rfl⟩
  · obtain heq | heq := exec_hdr_cases (f := (setAck · v)) rfl (fun _ => rfl) h <;> rw [heq] <;> exact ⟨rfl, rfl, rfl⟩
  · obtain ⟨flags, heq, hkept⟩ := exec_flag_keeps_unmasked h
    rw [heq]
    exact ⟨rfl, rfl, rfl, rfl, hkept⟩
  · have ht := Host.Outcome.next.inj (hset.symm.trans (exec_setFlag_live mask hf))
    have hft : t.fault = false := by rw [ht, setHdr_fault, setTxv_fault, hf]
    have hflags : t.hdr.flags = orMask s.hdr.flags mask := by rw [ht, setHdr_hdr, setFlags_flags]
    obtain rfl := Host.Outcome.next.inj ((exec_clrFlag_live mask hft).symm.trans hclr)
    rw [setHdr_hdr, setFlags_flags, hflags]
    exact ⟨clearMask_orMask, clearMask_and_mask _ _⟩

/-- Settles O27: each encoder is one write of its field. -/
theorem encodeFieldsLittleEndian : Obligations.EncodeFieldsLittleEndian :=
  ⟨runsAsI_of_mem (by simp [commandForms]), runsAsI_of_mem (by simp [commandForms]),
    fun _ v hf => ⟨exec_encSeq_live v hf, exec_encAck_live v hf⟩⟩

/-- Settles O28: each decoder is one write of RES, and zero-extension puts a zero byte in front. -/
theorem decodeFieldsUnsigned : Obligations.DecodeFieldsUnsigned :=
  ⟨runsAsN_of_mem (by simp [commandForms]), runsAsN_of_mem (by simp [commandForms]),
    runsAsN_of_mem (by simp [commandForms]),
    fun _ hf => ⟨exec_decSeq_live hf, exec_decAck_live hf, exec_decFlags_live hf⟩⟩

/-- Settles O29: the two masks, bit by bit. -/
theorem setAndClearFlagBits : Obligations.SetAndClearFlagBits :=
  ⟨runsAsM_of_mem (by simp [commandForms]), runsAsM_of_mem (by simp [commandForms]),
    fun _ mask hf => ⟨⟨_, exec_setFlag_live mask hf, rfl, orMask_getLsbD _ mask⟩,
      ⟨_, exec_clrFlag_live mask hf, rfl, clearMask_getLsbD _ mask⟩⟩⟩

/-- Settles O30: the AND of the flags and the mask is 0 exactly when no bit is set in both. -/
theorem hasFlagTestsAnyBit : Obligations.HasFlagTestsAnyBit := by
  refine ⟨runsAsM_of_mem (by simp [commandForms]), fun s mask hf => ⟨fun hsome => ?_, fun hnone => ?_⟩⟩
  · rw [exec_hasFlag_live _ hf, (anyMask_iff _ _).2 hsome]
    rfl
  · have hany : anyMask s.hdr.flags mask = false :=
      Bool.eq_false_iff.2 fun h => not_exists.2 hnone ((anyMask_iff _ _).1 h)
    rw [exec_hasFlag_live _ hf, hany]
    rfl

/-- Settles O31: the command writes the empty header. -/
theorem clearHeaderMakesItEmpty : Obligations.ClearHeaderMakesItEmpty :=
  ⟨runsAsN_of_mem (by simp [commandForms]), fun _ hf => exec_clrHdr_live hf⟩

end Sys2Proof.Machine
end

section
/-! PROOFS. The framing and buffer commands (41_framing.md R100 to R110): ASSEMBLE and SPLIT read as equations between the
payload, the header and the data segment, and the commands of one byte or one length, in range and out of range. -/

namespace Sys2Proof.Machine

/-! ### Words of the formats B and X (R71, R77) -/

/-- Format B has no must-be-zero bit, so every word of the row runs its command. -/
theorem runsAsB_of_mem {op : Byte} {c : Word → Byte → Instr} (h : (op, .b c) ∈ commandForms) : RunsAsB op c :=
  fun s _ hop => (runWord_of_mem_commandForms h hop s).1 BitVec.of_length_zero

theorem runsAsX_of_mem {op : Byte} {c : Word → Instr} (h : (op, .x c) ∈ commandForms) : RunsAsX op c :=
  fun s _ hop => runWord_of_mem_commandForms h hop s

/-! ### A command's outcome in a live block (R153) -/

/-- A live block whose check fails enters the fault, and nothing else happens (R152). -/
theorem exec_faults {i : Instr} {s : State} {e : Err} (hf : s.fault = false) (hc : execCheck i s = some e) :
    exec i s = .next (takeFault e s) := by
  rw [exec_eq_command, hc, command_error hf]

theorem exec_keeps_inv {i : Instr} {s t : State} (hs : s.Inv) (h : exec i s = .next t) : t.Inv := by
  obtain ⟨u, hu, hinv⟩ := exec_answersInv hs i
  obtain rfl : u = t := Host.Outcome.next.inj (hu.symm.trans h)
  exact hinv

/-! ### ASSEMBLE and SPLIT (R100, R101) -/

/-- Settles O33: DLEN ≤ MAX_DATA lets the body complete. -/
theorem assembleConcatenatesHeaderAndData : Obligations.AssembleConcatenatesHeaderAndData := by
  refine ⟨runsAsN_of_mem (by simp [commandForms]), fun s hinv hf => ?_⟩
  obtain ⟨t, ht, hmade, hframe⟩ := exec_assemble_completes hf hinv.dlenFits
  exact ⟨t, ht, hframe, hmade⟩

/-- Settles O34: the header check decides between the fault and the body, and PLEN ≤ MAX_PKT lets the body complete. -/
theorem splitSeparatesHeaderAndData : Obligations.SplitSeparatesHeaderAndData := by
  refine ⟨runsAsN_of_mem (by simp [commandForms]), fun s hinv hf => ⟨fun h5 => ?_, fun hshort => ?_⟩⟩
  · obtain ⟨t, ht, hmade, hframe⟩ := exec_split_completes hf h5 hinv.plenFits
    exact ⟨t, ht, hframe, hmade⟩
  · exact exec_faults hf (checkHeader_some.2 ⟨hshort, rfl⟩)

/-! ### The framing laws (R110) -/

/-- A payload of 5 bytes or more is its header and the bytes after it (R50). -/
theorem payload_eq_header_append {s : State} (h5 : 5 ≤ s.plen.toNat) :
    payload s = hdrBytes (headerInPkt s) ++ bytesFrom (readPkt s) 5 (s.plen.toNat - 5) := by
  obtain ⟨n, hn⟩ := Nat.exists_eq_add_of_le' h5
  rw [payload, hn, Nat.add_sub_cancel]
  rfl

/-- The payload depends on PKT, on the draw and on PLEN alone. -/
theorem payload_congr {s t : State} (hp : t.pkt = s.pkt) (hd : t.draw = s.draw) (hl : t.plen = s.plen) :
    payload t = payload s := by
  rw [payload, payload, hl]
  exact bytesFrom_congr fun k _ => readPkt_congr hp hd (0 + k)

theorem plen_of_assembled {h : Header} {s t : State} (hmade : Assembled h s t) : t.plen.toNat = 5 + s.dlen.toNat :=
  hmade.2.2.2

theorem five_le_plen_of_assembled {h : Header} {s t : State} (hmade : Assembled h s t) : 5 ≤ t.plen.toNat :=
  plen_of_assembled hmade ▸ Nat.le_add_right 5 _

theorem dlen_of_splitMade {s t : State} (hmade : SplitMade s t) : t.dlen.toNat = s.plen.toNat - 5 := hmade.2.1

theorem payload_of_assembled {h : Header} {s t : State} (hmade : Assembled h s t) :
    payload t = hdrBytes h ++ dataSegment s := by
  have h5 := five_le_plen_of_assembled hmade
  obtain ⟨hhdr, hdata, -, hplen⟩ := hmade
  rw [payload_eq_header_append h5, hhdr, hplen, Nat.add_sub_cancel_left, dataSegment]
  exact congrArg (hdrBytes h ++ ·) (bytesFrom_congr fun k hk => by rw [hdata k hk, Nat.zero_add])

theorem dataSegment_of_splitMade {s t : State} (hmade : SplitMade s t) :
    dataSegment t = bytesFrom (readPkt s) 5 (s.plen.toNat - 5) := by
  obtain ⟨-, hdlen, hdata, -⟩ := hmade
  rw [dataSegment, hdlen]
  exact bytesFrom_congr fun k hk => by rw [Nat.zero_add, hdata k hk]

/-- SPLIT takes the payload apart into exactly HDR and the data segment (R101). -/
theorem header_append_dataSegment_of_splitMade {s t : State} (h5 : 5 ≤ s.plen.toNat) (hmade : SplitMade s t) :
    hdrBytes t.hdr ++ dataSegment t = payload s := by
  rw [payload_eq_header_append h5, dataSegment_of_splitMade hmade, hmade.1]

/-- SPLIT of an assembled payload gives back the header and the data segment it was made of. -/
theorem split_of_assembled {h : Header} {s t u : State} (hasm : Assembled h s t) (hsplit : SplitMade t u) :
    u.hdr = h ∧ u.dlen = s.dlen ∧ dataSegment u = dataSegment s := by
  have heq : hdrBytes u.hdr ++ dataSegment u = hdrBytes h ++ dataSegment s :=
    (header_append_dataSegment_of_splitMade (five_le_plen_of_assembled hasm) hsplit).trans (payload_of_assembled hasm)
  refine ⟨hsplit.1.trans hasm.1, BitVec.eq_of_toNat_eq ?_, (List.append_inj heq rfl).2⟩
  rw [dlen_of_splitMade hsplit, plen_of_assembled hasm, Nat.add_sub_cancel_left]

/-- Settles O35: the payload that ASSEMBLE makes, and the one that SPLIT takes apart, is the header followed by the data
segment; the invariant lets the second command complete too. -/
theorem framingRoundTrips : Obligations.FramingRoundTrips := by
  refine fun s hinv hf => ⟨?_, fun h5 => ?_⟩
  · obtain ⟨t, ht, hasm, hframe⟩ := exec_assemble_completes hf hinv.dlenFits
    have hft : t.fault = false := by rw [hframe, hf]
    obtain ⟨u, hu, hsplit, huframe⟩ :=
      exec_split_completes hft (five_le_plen_of_assembled hasm) (exec_keeps_inv hinv ht).plenFits
    have hpayload : payload u = payload t := by rw [huframe]; exact payload_congr rfl rfl rfl
    obtain ⟨hhdr, hdlen, hdata⟩ := split_of_assembled hasm hsplit
    refine ⟨t, u, ht, hu, hhdr, hdlen, hdata, hpayload.trans (payload_of_assembled hasm), ?_⟩
    rw [huframe]
    exact plen_of_assembled hasm
  · obtain ⟨t, ht, hsplit, hframe⟩ := exec_split_completes hf h5 hinv.plenFits
    have hft : t.fault = false := by rw [hframe, hf]
    obtain ⟨u, hu, hasm, -⟩ := exec_assemble_completes hft (exec_keeps_inv hinv ht).dlenFits
    refine ⟨t, u, ht, hu, (payload_of_assembled hasm).trans (header_append_dataSegment_of_splitMade h5 hsplit), ?_⟩
    apply BitVec.eq_of_toNat_eq
    rw [plen_of_assembled hasm, dlen_of_splitMade hsplit, Nat.add_sub_cancel' h5]

/-! ### One byte or one length, in range (R102 to R109) -/

section
variable {s : State} (hf : s.fault = false)
include hf

theorem exec_wrPkt_live {idx : Word} (v : Byte) (h : idx.toNat < maxPktOf s) :
    exec (.wrPkt idx v) s = .next (setPkt (setTxv s false) (storeCell s.pkt idx.toNat v)) :=
  exec_runs hf (checkIndex_none.2 h)

theorem exec_wrData_live {idx : Word} (v : Byte) (h : idx.toNat < maxDataOf s) :
    exec (.wrData idx v) s = .next (setData (setTxv s false) (storeCell s.data idx.toNat v)) :=
  exec_runs hf (checkIndex_none.2 h)

theorem exec_rdPkt_live {idx : Word} (h : idx.toNat < maxPktOf s) :
    exec (.rdPkt idx) s = .next (setRes (setTxv s false) (0#8 ++ readPkt s idx.toNat)) := by
  rw [← zext16_eq_append]
  exact exec_runs hf (checkIndex_none.2 h)

theorem exec_rdData_live {idx : Word} (h : idx.toNat < maxDataOf s) :
    exec (.rdData idx) s = .next (setRes (setTxv s false) (0#8 ++ readData s idx.toNat)) := by
  rw [← zext16_eq_append]
  exact exec_runs hf (checkIndex_none.2 h)

theorem exec_setPlen_live {v : Word} (h : v.toNat ≤ maxPktOf s) :
    exec (.setPlen v) s = .next (setPlen (setTxv s false) v) :=
  exec_runs hf (checkLength_none.2 h)

theorem exec_setDlen_live {v : Word} (h : v.toNat ≤ maxDataOf s) :
    exec (.setDlen v) s = .next (setDlen (setTxv s false) v) :=
  exec_runs hf (checkLength_none.2 h)

theorem exec_getDlen_live : exec .getDlen s = .next (setRes (setTxv s false) s.dlen) :=
  exec_runs hf rfl

end

/-- Settles O36: in range the command stores one cell, and a read sees the store at its own address alone; out of range
the index check fails. -/
theorem byteWritesChangeOneByte : Obligations.ByteWritesChangeOneByte := by
  refine ⟨runsAsB_of_mem (by simp [commandForms]), runsAsB_of_mem (by simp [commandForms]), fun s idx v hf => ?_⟩
  refine ⟨fun hin => ?_, fun hout => ?_, fun hin => ?_, fun hout => ?_⟩
  · exact ⟨_, exec_wrPkt_live hf v hin, rfl, readPkt_storeCell_same (setTxv s false) _ v,
      fun _ ha => readPkt_storeCell_ne (setTxv s false) v ha⟩
  · exact exec_faults hf (checkIndex_some.2 ⟨hout, rfl⟩)
  · exact ⟨_, exec_wrData_live hf v hin, rfl, readData_storeCell_same (setTxv s false) _ v,
      fun _ ha => readData_storeCell_ne (setTxv s false) v ha⟩
  · exact exec_faults hf (checkIndex_some.2 ⟨hout, rfl⟩)

/-- Settles O37: in range the command writes RES, out of range the index check fails. -/
theorem byteReadsGoToRes : Obligations.ByteReadsGoToRes := by
  refine ⟨runsAsX_of_mem (by simp [commandForms]), runsAsX_of_mem (by simp [commandForms]), fun s idx hf => ?_⟩
  refine ⟨fun hin => ?_, fun hout => ?_, fun hin => ?_, fun hout => ?_⟩
  · exact exec_rdPkt_live hf hin
  · exact exec_faults hf (checkIndex_some.2 ⟨hout, rfl⟩)
  · exact exec_rdData_live hf hin
  · exact exec_faults hf (checkIndex_some.2 ⟨hout, rfl⟩)

/-- Settles O38: a length up to and including the buffer's size passes the length check, a longer one fails it, and the
reads have no check. -/
theorem lengthsAreSetInRangeAndRead : Obligations.LengthsAreSetInRangeAndRead := by
  refine ⟨runsAsI_of_mem (by simp [commandForms]), runsAsI_of_mem (by simp [commandForms]),
    runsAsN_of_mem (by simp [commandForms]), runsAsN_of_mem (by simp [commandForms]), fun s v hf => ?_,
    fun s hf => ⟨exec_getPlen_live hf, exec_getDlen_live hf⟩⟩
  refine ⟨fun hin => ?_, fun hout => ?_, fun hin => ?_, fun hout => ?_⟩
  · exact exec_setPlen_live hf hin
  · exact exec_faults hf (checkLength_some.2 ⟨hout, rfl⟩)
  · exact exec_setDlen_live hf hin
  · exact exec_faults hf (checkLength_some.2 ⟨hout, rfl⟩)

end Sys2Proof.Machine
end

section
/-! PROOFS. The packet builders (42_packet_builders.md R115 to R125): the packet that each body leaves in PKT, and when the
commands complete. The connection commands run the same bodies. -/

namespace Sys2Proof.Machine

/-! ### The request packets (R120, R121) -/

/-- RND bit 15 is dropped, and the other bits stay (R120). -/
theorem connSeq_getLsbD (s : State) (k : Nat) : (connSeq s).getLsbD k = (s.rnd.getLsbD k && decide (k < 15)) := by
  have hmask : Config.connSeqMask.getLsbD k = decide (k < 15) := Nat.testBit_two_pow_sub_one 15 k
  rw [connSeq, BitVec.getLsbD_and, hmask]

theorem zeroBit_append_eq_setWidth {n : Nat} (v : BitVec n) : 0#1 ++ v = v.setWidth (1 + n) :=
  (BitVec.setWidth_eq_append (by omega)).symm

theorem connSeq_eq (s : State) : connSeq s = 0#1 ++ s.rnd.extractLsb' 0 15 := by
  rw [zeroBit_append_eq_setWidth]
  refine BitVec.eq_of_getLsbD_eq fun k hk => ?_
  rw [connSeq_getLsbD]
  simp [hk, Bool.and_comm]

theorem connSeq_lowByte (s : State) : (connSeq s).extractLsb' 0 8 = s.rnd.extractLsb' 0 8 := by
  refine BitVec.eq_of_getLsbD_eq fun k hk => ?_
  simp [connSeq_getLsbD, show k < 15 by omega]

theorem connSeq_highByte (s : State) : (connSeq s).extractLsb' 8 8 = 0#1 ++ s.rnd.extractLsb' 8 7 := by
  rw [zeroBit_append_eq_setWidth]
  refine BitVec.eq_of_getLsbD_eq fun k hk => ?_
  have hbit : 8 + k < 15 ↔ k < 7 := by omega
  simp [connSeq_getLsbD, hk, hbit, Bool.and_comm]

theorem connReqBody_made (s : State) : ConnReqMade s (connReqBody s) := by
  obtain ⟨hpacket, hkept⟩ := freshPacket_packet (setFlags (setSeq emptyHdr (connSeq s)) maskSyn) s
  have hhdr : (connReqBody s).hdr =
      ⟨s.rnd.extractLsb' 0 8, 0#1 ++ s.rnd.extractLsb' 8 7, 0#8, 0#8, 0x80#8⟩ := by
    rw [← connSeq_lowByte, ← connSeq_highByte]
    rfl
  exact ⟨hhdr, hpacket, hkept, rfl, connSeq_eq s⟩

theorem discReqBody_made (s : State) : DiscReqMade s (discReqBody s) := by
  obtain ⟨hpacket, hkept⟩ := freshPacket_packet (setFlags emptyHdr maskFin) s
  exact ⟨rfl, hpacket, hkept, rfl⟩

/-- Settles O40: the body has no check, and makes a fresh packet of the masked RND. -/
theorem connectionRequestIsBuilt : Obligations.ConnectionRequestIsBuilt :=
  ⟨runsAsN_of_mem (by simp [commandForms]),
    fun s hf => ⟨_, exec_runs hf rfl, connReqBody_made (setTxv s false), rfl⟩⟩

/-- Settles O41: the body has no check, and makes a fresh packet of the header that has FIN alone. -/
theorem disconnectRequestIsBuilt : Obligations.DisconnectRequestIsBuilt :=
  ⟨runsAsN_of_mem (by simp [commandForms]),
    fun s hf => ⟨_, exec_runs hf rfl, discReqBody_made (setTxv s false), rfl⟩⟩

/-! ### The data packet (R122) -/

/-- Everything the body does, when it completes. -/
theorem dataPacketBody_made {s t : State} (h : dataPacketBody s = .next t) :
    DataPacketMade s t ∧ t = { s with hdr := t.hdr, pkt := t.pkt, plen := t.plen } := by
  have hasm : Assembled (setFlags emptyHdr maskPsh) s t := assembleBody_assembled h
  obtain ⟨-, ht, -⟩ := assembleBody_next h
  have hhdr : t.hdr = setFlags emptyHdr maskPsh := by rw [ht]; rfl
  refine ⟨⟨hhdr, hhdr ▸ hasm⟩, ?_⟩
  rw [ht]
  rfl

theorem dataPacketBody_runs {s : State} (h : s.dlen.toNat ≤ maxDataOf s) : ∃ t, dataPacketBody s = .next t :=
  assembleBody_runs (s := setHdr s _) h

/-- Settles O42: DLEN ≤ MAX_DATA lets the body complete. -/
theorem dataPacketIsBuilt : Obligations.DataPacketIsBuilt := by
  refine ⟨runsAsN_of_mem (by simp [commandForms]), fun s hinv hf => ?_⟩
  obtain ⟨t, ht⟩ := dataPacketBody_runs (s := setTxv s false) hinv.dlenFits
  obtain ⟨hmade, hframe⟩ := dataPacketBody_made ht
  exact ⟨t, (exec_runs hf rfl).trans ht, hmade, hframe⟩

/-! ### The acknowledgements in place (R117 to R119, R123 to R125) -/

/-- The mask of a server's new sequence number keeps all of RND (R118, R119). -/
@[simp] theorem and_ackSeqMask (r : Word) : r &&& Config.ackSeqMask = r := BitVec.and_allOnes

theorem clientAck_made (s : State) : ClientAckMade s (ackInPlace clientAckXf s) := by
  obtain ⟨hpacket, hkept⟩ := ackInPlace_packet clientAckXf s
  have hack : hdrAck (clientAckXf (headerInPkt s)) = hdrSeq (headerInPkt s) + 1#16 := by simp [clientAckXf]
  have hseq : hdrSeq (clientAckXf (headerInPkt s)) = 0#16 := by simp [clientAckXf]
  exact ⟨rfl, hack, hseq, hpacket, hkept⟩

theorem serverAck_made (s : State) : ServerAckMade s (ackInPlace (serverAckXf · s.rnd) s) := by
  obtain ⟨hpacket, hkept⟩ := ackInPlace_packet (serverAckXf · s.rnd) s
  have hack : hdrAck (serverAckXf (headerInPkt s) s.rnd) = hdrAck (headerInPkt s) + 1#16 := by simp [serverAckXf]
  have hseq : hdrSeq (serverAckXf (headerInPkt s) s.rnd) = s.rnd := by simp [serverAckXf]
  exact ⟨rfl, hack, hseq, hpacket, hkept⟩

theorem closeAck_made (s : State) : CloseAckMade s (ackInPlace (closeAckXf · s.rnd) s) := by
  obtain ⟨hpacket, hkept⟩ := ackInPlace_packet (closeAckXf · s.rnd) s
  have hack : hdrAck (closeAckXf (headerInPkt s) s.rnd) = hdrAck (headerInPkt s) + 1#16 := by simp [closeAckXf]
  have hseq : hdrSeq (closeAckXf (headerInPkt s) s.rnd) = s.rnd := by simp [closeAckXf]
  exact ⟨rfl, hack, hseq, hpacket, hkept⟩

/-- A command that checks for a header and then changes it in place, in a live block. -/
theorem exec_ackInPlace_live {i : Instr} {xf : Header → Word → Header} {s : State} (hc : execCheck i = checkHeader)
    (hb : execBody i = fun s => .next (ackInPlace (xf · s.rnd) s)) (hf : s.fault = false) :
    (5 ≤ s.plen.toNat → exec i s = .next (ackInPlace (xf · s.rnd) (setTxv s false))) ∧
    (s.plen.toNat < 5 → exec i s = .next (takeFault .malformedHeader s)) := by
  constructor
  · intro h5
    rw [exec_runs hf (by rw [hc, checkHeader_none.2 h5]), hb]
    rfl
  · intro hshort
    exact exec_faults hf (by rw [hc, checkHeader_some.2 ⟨hshort, rfl⟩])

/-- Settles O43: the ack is taken from the received sequence number, before that field is zeroed. -/
theorem clientAckIsBuiltInPlace : Obligations.ClientAckIsBuiltInPlace := by
  refine ⟨runsAsN_of_mem (by simp [commandForms]), fun s hf => ?_⟩
  obtain ⟨hruns, hfaults⟩ := exec_ackInPlace_live (i := .buildClientAck) (xf := fun h _ => clientAckXf h) rfl rfl hf
  exact ⟨fun h5 => ⟨_, hruns h5, clientAck_made (setTxv s false), rfl⟩, hfaults⟩

/-- Settles O44: the ack is taken from the packet's own ack, and the sequence number is RND. -/
theorem serverAckIsBuiltInPlace : Obligations.ServerAckIsBuiltInPlace := by
  refine ⟨runsAsN_of_mem (by simp [commandForms]), fun s hf => ?_⟩
  obtain ⟨hruns, hfaults⟩ := exec_ackInPlace_live (i := .buildServerAck) (xf := serverAckXf) rfl rfl hf
  exact ⟨fun h5 => ⟨_, hruns h5, serverAck_made (setTxv s false), rfl⟩, hfaults⟩

/-- Settles O45: as the server's acknowledgement, with FIN set in the place of ACK. -/
theorem closeAckIsBuiltInPlace : Obligations.CloseAckIsBuiltInPlace := by
  refine ⟨runsAsN_of_mem (by simp [commandForms]), fun s hf => ?_⟩
  obtain ⟨hruns, hfaults⟩ := exec_ackInPlace_live (i := .buildCloseAck) (xf := closeAckXf) rfl rfl hf
  exact ⟨fun h5 => ⟨_, hruns h5, closeAck_made (setTxv s false), rfl⟩, hfaults⟩

end Sys2Proof.Machine
end

section
/-! PROOFS. The validators (43_validators.md R130 to R136): the bits that they test, and the FSM commands beside another
value in RES. -/

namespace Sys2Proof.Machine

/-! ### The FSM commands beside another RES (R27, R136) -/

/-- A body that commutes with `f` completes after `f` whenever it completes before it. -/
theorem CommutesWith.of_next {f : State → State} {body : State → Result} {s t : State} (hb : CommutesWith f body)
    (h : body s = .next t) : body (f s) = .next (f t) := by
  rw [hb s, h, andThen_of_next]

theorem assembleBody_setRes (v : Word) : CommutesWith (setRes · v) assembleBody := by
  intro s
  simp only [assembleBody, andThen_ite]
  rfl

theorem dataPacketBody_setRes (v : Word) : CommutesWith (setRes · v) dataPacketBody :=
  fun s => assembleBody_setRes v (setHdr s (setFlags emptyHdr maskPsh))

theorem splitBody_setRes (v : Word) : CommutesWith (setRes · v) splitBody := by
  intro s
  simp only [splitBody, andThen_ite]
  rfl

theorem serveEstablished_setRes (s : State) (v : Word) :
    serveEstablished (setRes s v) = setRes (serveEstablished s) v := by
  have hfin : (loadHdr (setRes s v)).hdr.flags = (loadHdr s).hdr.flags := rfl
  unfold serveEstablished
  rw [hfin]
  split <;> rfl

theorem sRecvBody_setRes (v : Word) : CommutesWith (setRes · v) sRecvBody := by
  intro s
  cases hc : s.cstate with
  | sEstablished =>
    simp only [sRecvBody, setRes_cstate, hc]
    exact congrArg Host.Outcome.next (serveEstablished_setRes s v)
  | _ =>
    simp only [sRecvBody, setRes_cstate, hc]
    rfl

/-- In C_ECHO_WAIT the new DLEN goes over whatever RES held; in the other states RES stays. -/
theorem cRecvBody_setRes {s t : State} (v : Word) (h : cRecvBody s = .next t) :
    cRecvBody (setRes s v) = .next (setRes t (if writesRes .cRecv s.cstate = true then t.res else v)) := by
  cases hc : s.cstate with
  | cEchoWait =>
    simp only [cRecvBody, hc] at h
    obtain ⟨u, hu, hut⟩ := andThen_next h
    obtain rfl := Host.Outcome.next.inj hut
    simp only [cRecvBody, setRes_cstate, hc, (splitBody_setRes v).of_next hu]
    rfl
  | _ =>
    simp only [cRecvBody, hc] at h
    obtain rfl := Host.Outcome.next.inj h
    simp only [cRecvBody, setRes_cstate, hc]
    rfl

/-- The body of an FSM command completes with any value in RES as with another, and leaves that value where the command
writes nothing. -/
theorem execBody_setRes {i : Instr} {s t : State} (hi : fsmCommand i = true) (v : Word) (h : execBody i s = .next t) :
    execBody i (setRes s v) = .next (setRes t (if writesRes i s.cstate = true then t.res else v)) := by
  cases i with
  | cConnect | cClose | abort =>
    obtain rfl := Host.Outcome.next.inj h
    rfl
  | cSend =>
    exact (commutesWith_andThen (g := sendThen .cEchoWait) (dataPacketBody_setRes v) fun _ => rfl).of_next h
  | cRecv => exact cRecvBody_setRes v h
  | sRecv => exact (sRecvBody_setRes v).of_next h
  | _ => cases hi

theorem execCheck_setRes (i : Instr) (s : State) (v : Word) : execCheck i (setRes s v) = execCheck i s := by
  cases i <;> rfl

/-- Settles O24: a halted block and a fault keep the other value, and the body of an FSM command keeps it or writes over
it. -/
theorem fsmCommandsDoNotReadRes : Obligations.FsmCommandsDoNotReadRes := by
  intro i s t v hi h
  change exec i (setRes s v) = .next (setRes t _)
  rw [exec_eq_command, execCheck_setRes]
  obtain ⟨hf, rfl⟩ | ⟨hf, e, hc, rfl⟩ | ⟨hf, hc, hbody⟩ := command_next_cases (exec_eq_command i s ▸ h)
  · rw [command_halted (s := setRes t v) hf, if_neg (by simp [hf])]
  · rw [hc, command_error (s := setRes s v) hf, if_neg (by simp)]
    rfl
  · have hlive : t.fault = false := (execBody_control hbody).fault.trans hf
    rw [hc, command_runs (s := setRes s v) hf]
    simp only [hlive, true_and]
    exact execBody_setRes hi v hbody

/-! ### The tests of the header (R131 to R134) -/

/-- A mask of one bit tests that bit. -/
theorem anyMask_twoPow (flags : Byte) {k : Nat} (hk : k < 8) : anyMask flags (BitVec.twoPow 8 k) = flags.getLsbD k := by
  rw [Bool.eq_iff_iff, anyMask_iff]
  simp [BitVec.getLsbD_twoPow, hk]

@[simp] theorem anyMask_maskSyn (flags : Byte) : anyMask flags maskSyn = flags.getLsbD 7 :=
  anyMask_twoPow flags (k := 7) (by decide)

@[simp] theorem anyMask_maskAck (flags : Byte) : anyMask flags maskAck = flags.getLsbD 5 :=
  anyMask_twoPow flags (k := 5) (by decide)

@[simp] theorem anyMask_maskFin (flags : Byte) : anyMask flags maskFin = flags.getLsbD 3 :=
  anyMask_twoPow flags (k := 3) (by decide)

/-- The comparison of R133 on numbers: the sum wraps at 2^16. -/
theorem serverAckOk_iff (h : Header) (orig : Word) :
    serverAckOk h orig = true ↔
      h.flags.getLsbD 7 = true ∧ h.flags.getLsbD 5 = true ∧ (hdrAck h).toNat = (orig.toNat + 1) % 65536 := by
  simp [serverAckOk, and_assoc, ← BitVec.toNat_inj, BitVec.toNat_add]

/-! ### The commands in a live block (R131 to R135) -/

section
variable {s : State} (hf : s.fault = false)
include hf

theorem exec_vConnReq_live :
    exec .vConnReq s = .next (setRes (setTxv s false) (boolWord (s.hdr.flags.getLsbD 7))) := by
  rw [← anyMask_maskSyn]
  exact exec_runs hf rfl

theorem exec_vClientAck_live :
    exec .vClientAck s = .next (setRes (setTxv s false) (boolWord (s.hdr.flags.getLsbD 5))) := by
  rw [← anyMask_maskAck]
  exact exec_runs hf rfl

theorem exec_vDiscReq_live :
    exec .vDiscReq s = .next (setRes (setTxv s false) (boolWord (s.hdr.flags.getLsbD 3))) := by
  rw [← anyMask_maskFin]
  exact exec_runs hf rfl

theorem exec_vServerAck_live :
    exec .vServerAck s = .next (setRes (setTxv s false) (boolWord (serverAckOk s.hdr s.origSeq))) :=
  exec_runs hf rfl

theorem exec_captureOrig_live : exec .captureOrig s = .next (setOrigSeq (setTxv s false) (hdrSeq s.hdr)) :=
  exec_runs hf rfl

end

/-- Settles O46: each mask has one bit set, and the command writes RES alone. -/
theorem flagValidatorsTestOneBit : Obligations.FlagValidatorsTestOneBit :=
  ⟨runsAsN_of_mem (by simp [commandForms]), runsAsN_of_mem (by simp [commandForms]),
    runsAsN_of_mem (by simp [commandForms]),
    fun _ hf => ⟨exec_vConnReq_live hf, exec_vClientAck_live hf, exec_vDiscReq_live hf⟩⟩

/-- Settles O47: the command's condition is the two flags and the comparison of the numbers mod 2^16. -/
theorem serverAckValidatorComparesModulo : Obligations.ServerAckValidatorComparesModulo := by
  refine ⟨runsAsN_of_mem (by simp [commandForms]), fun s hf => ⟨fun hok => ?_, fun hbad => ?_⟩⟩
  · rw [exec_vServerAck_live hf, (serverAckOk_iff _ _).2 hok]
    rfl
  · rw [exec_vServerAck_live hf, Bool.eq_false_iff.2 fun h => hbad ((serverAckOk_iff _ _).1 h)]
    rfl

/-- Settles O48: the command writes ORIG_SEQ alone. -/
theorem captureOrigTakesTheSequenceNumber : Obligations.CaptureOrigTakesTheSequenceNumber :=
  ⟨runsAsN_of_mem (by simp [commandForms]), fun _ hf => exec_captureOrig_live hf⟩

end Sys2Proof.Machine
end

section
/-! PROOFS. The connection state machine (44_connection_fsm.md R140 to R149): what each body makes of CSTATE, against the
table of R141, and the FSM commands in the states they accept and in the others. -/

namespace Sys2Proof.Machine

/-! ### The transition table (R140, R141) -/

theorem nextCState_of_not_fsm {i : Instr} (hi : fsmCommand i = false) (c : CState) (fin : Bool) :
    nextCState i c fin = c := by
  cases i with
  | cConnect | cRecv | cSend | cClose | sRecv | abort => cases hi
  | _ => rfl

/-- The server leaves S_ESTABLISHED exactly on FIN (R146). -/
theorem serveEstablished_cstate {s : State} (hc : s.cstate = .sEstablished) :
    (serveEstablished s).cstate = if finInPkt s then .closed else .sEstablished := by
  have hfin : anyMask (loadHdr s).hdr.flags maskFin = finInPkt s := anyMask_maskFin _
  rw [serveEstablished, hfin]
  split
  · rfl
  · exact hc

theorem cRecvBody_cstate {s t : State} (h : cRecvBody s = .next t) (fin : Bool) :
    t.cstate = nextCState .cRecv s.cstate fin := by
  cases hc : s.cstate with
  | cEchoWait =>
    simp only [cRecvBody, hc] at h
    obtain ⟨u, -, hut⟩ := andThen_next h
    obtain rfl := Host.Outcome.next.inj hut
    rfl
  | cSynSent | cClosing =>
    simp only [cRecvBody, hc] at h
    obtain rfl := Host.Outcome.next.inj h
    rfl
  | _ =>
    simp only [cRecvBody, hc] at h
    obtain rfl := Host.Outcome.next.inj h
    exact hc

theorem sRecvBody_cstate {s t : State} (h : sRecvBody s = .next t) :
    t.cstate = nextCState .sRecv s.cstate (finInPkt s) := by
  cases hc : s.cstate with
  | sEstablished =>
    simp only [sRecvBody, hc] at h
    obtain rfl := Host.Outcome.next.inj h
    exact serveEstablished_cstate hc
  | idle | sSynRcvd =>
    simp only [sRecvBody, hc] at h
    obtain rfl := Host.Outcome.next.inj h
    rfl
  | _ =>
    simp only [sRecvBody, hc] at h
    obtain rfl := Host.Outcome.next.inj h
    exact hc

/-- Behind a check that passes, a body moves CSTATE by the table; the state checks of C_CONNECT, C_SEND and C_CLOSE leave
the one state of their row. -/
theorem execBody_cstate {i : Instr} {s t : State} (hc : execCheck i s = none) (h : execBody i s = .next t) :
    t.cstate = nextCState i s.cstate (finInPkt s) := by
  cases i with
  | cConnect | cClose =>
    obtain rfl := Host.Outcome.next.inj h
    rw [List.mem_singleton.1 (checkState_none.1 hc)]
    rfl
  | cSend =>
    obtain ⟨u, -, hut⟩ := andThen_next h
    obtain rfl := Host.Outcome.next.inj hut
    rw [List.mem_singleton.1 (checkState_none.1 hc)]
    rfl
  | cRecv => exact cRecvBody_cstate h _
  | sRecv => exact sRecvBody_cstate h
  | abort =>
    obtain rfl := Host.Outcome.next.inj h
    rfl
  | assemble | buildData =>
    obtain ⟨-, ht, -⟩ := assembleBody_next h
    rw [ht]
    rfl
  | split =>
    obtain ⟨-, ht, -⟩ := splitBody_next h
    rw [ht]
    rfl
  | _ =>
    obtain rfl := Host.Outcome.next.inj h
    rfl

theorem firstError_of_some {a : Option Err} {e : Err} (h : a = some e) (b : Option Err) : firstError a b = some e := by
  rw [h]
  rfl

theorem firstError_of_none {a : Option Err} (h : a = none) (b : Option Err) : firstError a b = b := by
  rw [h]
  rfl

/-- The state check comes before the header check (R153). -/
theorem execCheck_of_not_accepted {i : Instr} {l : List CState} {s : State} (hl : acceptedStates i = some l)
    (hs : s.cstate ∉ l) : execCheck i s = some .illegalState := by
  have hcheck : checkState l s = some .illegalState := checkState_some.2 ⟨hs, rfl⟩
  cases i with
  | cConnect | cSend | cClose =>
    obtain rfl := Option.some.inj hl
    exact hcheck
  | cRecv | sRecv =>
    obtain rfl := Option.some.inj hl
    exact firstError_of_some hcheck _
  | _ => cases hl

/-- An FSM command in a state that the table does not give it (R140). -/
theorem exec_of_not_accepted {i : Instr} {l : List CState} {s : State} (hf : s.fault = false)
    (hl : acceptedStates i = some l) (hs : s.cstate ∉ l) : exec i s = .next (takeFault .illegalState s) :=
  exec_faults hf (execCheck_of_not_accepted hl hs)

/-- In a live block a command faults and keeps CSTATE, or its body moves CSTATE by the table. -/
theorem exec_cstate_live {i : Instr} {s t : State} (hf : s.fault = false) (h : exec i s = .next t) :
    (t.fault = true ∧ t.cstate = s.cstate) ∨ (t.fault = false ∧ t.cstate = nextCState i s.cstate (finInPkt s)) := by
  obtain ⟨hhalt, -⟩ | ⟨-, e, -, rfl⟩ | ⟨-, hc, hbody⟩ := command_next_cases (exec_eq_command i s ▸ h)
  · exact absurd (hf.symm.trans hhalt) Bool.false_ne_true
  · exact .inl ⟨rfl, rfl⟩
  · have hcheck : execCheck i (setTxv s false) = none := (execCheck_setTxv i s false).trans hc
    exact .inr ⟨(execBody_control hbody).fault.trans hf, execBody_cstate (s := setTxv s false) hcheck hbody⟩

/-- Settles O18: a live block either faults and keeps CSTATE, or its body moves CSTATE by the table; outside the table the
state check fails. -/
theorem connectionFollowsTheTable : Obligations.ConnectionFollowsTheTable := by
  intro i s hf
  refine ⟨fun t h ht => ?_, fun t h ht => ?_, fun l hl hs => exec_of_not_accepted hf hl hs⟩
  · obtain ⟨hfault, -⟩ | ⟨-, hnext⟩ := exec_cstate_live hf h
    · exact absurd (ht.symm.trans hfault) Bool.false_ne_true
    · exact hnext
  · obtain ⟨-, hkept⟩ | ⟨hlive, -⟩ := exec_cstate_live hf h
    · exact hkept
    · exact absurd (hlive.symm.trans ht) Bool.false_ne_true

/-! ### Roles (R149) -/

/-- CSTATE may go from `c` to `d`: CLOSED stays, and a role is kept until CLOSED. -/
def RoleKept (c d : CState) : Prop :=
  (c = .closed → d = .closed) ∧ (clientState c = true → clientState d = true ∨ d = .closed) ∧
    (serverState c = true → serverState d = true ∨ d = .closed)

theorem roleKept_refl (c : CState) : RoleKept c c := ⟨id, .inl, .inl⟩

theorem roleKept_closed (c : CState) : RoleKept c .closed := ⟨fun _ => rfl, fun _ => .inr rfl, fun _ => .inr rfl⟩

/-- Each row of the table keeps the role; IDLE alone has none. -/
theorem nextCState_roleKept (i : Instr) (c : CState) (fin : Bool) : RoleKept c (nextCState i c fin) := by
  cases hi : fsmCommand i with
  | false =>
    rw [nextCState_of_not_fsm hi]
    exact roleKept_refl c
  | true =>
    unfold nextCState
    split
    case h_9 =>
      cases fin
      · exact roleKept_refl _
      · exact roleKept_closed _
    case h_10 => exact roleKept_closed _
    case h_11 => exact roleKept_refl _
    all_goals simp [RoleKept, clientState, serverState]

theorem exec_roleKept {i : Instr} {s t : State} (h : exec i s = .next t) : RoleKept s.cstate t.cstate := by
  cases hf : s.fault with
  | true =>
    rw [exec_eq_command, command_halted hf] at h
    exact Host.Outcome.next.inj h ▸ roleKept_refl _
  | false =>
    obtain ⟨-, hkept⟩ | ⟨-, hnext⟩ := exec_cstate_live hf h
    · exact hkept ▸ roleKept_refl _
    · exact hnext ▸ nextCState_roleKept _ _ _

/-- A word that is no command leaves CSTATE in any case. -/
theorem runWord_roleKept {w : CmdWord} {s t : State} (h : runWord w s = .next t) : RoleKept s.cstate t.cstate := by
  unfold runWord at h
  split at h
  · exact exec_roleKept h
  · obtain ⟨-, rfl⟩ | ⟨-, e, -, rfl⟩ | ⟨-, hc, -⟩ := command_next_cases h
    · exact roleKept_refl _
    · exact roleKept_refl _
    · cases hc

/-- Settles O19: every row of the table keeps the role, and a word that moves CSTATE moves it by the table. -/
theorem closedIsTerminalAndRolesAreFixed : Obligations.ClosedIsTerminalAndRolesAreFixed :=
  fun _ _ _ h => runWord_roleKept h

/-! ### The client's commands (R142 to R145) -/

/-- Settles O49: in IDLE the body makes the connection request, and elsewhere the state check fails. -/
theorem clientConnects : Obligations.ClientConnects := by
  refine ⟨runsAsN_of_mem (by simp [commandForms]), fun s hf => ⟨fun hc => ?_, fun hc => ?_⟩⟩
  · exact ⟨_, exec_runs hf (checkState_none.2 (List.mem_singleton.2 hc)), connReqBody_made (setTxv s false), rfl⟩
  · exact exec_of_not_accepted hf rfl (by simpa using hc)

/-- Settles O52: in C_ESTABLISHED the body makes the disconnect request, and elsewhere the state check fails. -/
theorem clientCloses : Obligations.ClientCloses := by
  refine ⟨runsAsN_of_mem (by simp [commandForms]), fun s hf => ⟨fun hc => ?_, fun hc => ?_⟩⟩
  · exact ⟨_, exec_runs hf (checkState_none.2 (List.mem_singleton.2 hc)), discReqBody_made (setTxv s false), rfl⟩
  · exact exec_of_not_accepted hf rfl (by simpa using hc)

/-- C_SEND from C_ESTABLISHED (R144). -/
theorem exec_cSend_completes {s : State} (hs : s.Inv) (hf : s.fault = false) (hc : s.cstate = .cEstablished) :
    ∃ t, exec .cSend s = .next t ∧ DataPacketMade s t ∧
      t = { s with txv := true, cstate := .cEchoWait, hdr := t.hdr, pkt := t.pkt, plen := t.plen } := by
  obtain ⟨u, hu⟩ := dataPacketBody_runs (s := setTxv s false) hs.dlenFits
  obtain ⟨hmade, hframe⟩ := dataPacketBody_made hu
  refine ⟨sendThen .cEchoWait u, ?_, hmade, ?_⟩
  · rw [exec_runs (i := .cSend) hf (checkState_none.2 (List.mem_singleton.2 hc))]
    simp only [execBody, hu, andThen_of_next]
  · rw [hframe]
    rfl

/-- Settles O51: DLEN ≤ MAX_DATA lets the body complete, and outside C_ESTABLISHED the state check fails. -/
theorem clientSends : Obligations.ClientSends :=
  ⟨runsAsN_of_mem (by simp [commandForms]), fun _ hs hf =>
    ⟨exec_cSend_completes hs hf, fun hc => exec_of_not_accepted hf rfl (by simpa using hc)⟩⟩

/-- C_RECV in a state it accepts: the header check decides (R143, R153). -/
theorem exec_cRecv_accepted {s : State} (hf : s.fault = false) (hc : s.cstate ∈ [CState.cSynSent, .cEchoWait, .cClosing]) :
    (5 ≤ s.plen.toNat → exec .cRecv s = cRecvBody (setTxv s false)) ∧
    (s.plen.toNat < 5 → exec .cRecv s = .next (takeFault .malformedHeader s)) := by
  have hcheck : execCheck .cRecv s = checkHeader s := firstError_of_none (checkState_none.2 hc) _
  exact ⟨fun h5 => exec_runs hf (hcheck.trans (checkHeader_none.2 h5)),
    fun hshort => exec_faults hf (hcheck.trans (checkHeader_some.2 ⟨hshort, rfl⟩))⟩

/-- C_RECV of an echo (R143). -/
theorem exec_cRecv_echo {s : State} (hs : s.Inv) (hf : s.fault = false) (hc : s.cstate = .cEchoWait)
    (h5 : 5 ≤ s.plen.toNat) :
    ∃ t, exec .cRecv s = .next t ∧ SplitMade s t ∧
      t = { s with txv := false, cstate := .cEstablished, hdr := t.hdr, data := t.data, dlen := t.dlen, res := t.dlen } := by
  obtain ⟨u, hu⟩ := splitBody_runs (s := setTxv s false) hs.plenFits
  obtain ⟨-, hframe, -⟩ := splitBody_next hu
  have hmade : SplitMade s u := splitBody_split (s := setTxv s false) h5 hu
  refine ⟨setCstate (setRes u u.dlen) .cEstablished, ?_, hmade, ?_⟩
  · rw [(exec_cRecv_accepted hf (by simp [hc])).1 h5]
    simp only [cRecvBody, setTxv_cstate, hc, hu, andThen_of_next]
  · rw [hframe]
    rfl

/-- C_RECV of a reply that is acknowledged in place (R143). -/
theorem exec_cRecv_ack {s : State} {c d : CState} (hf : s.fault = false) (hc : s.cstate = c)
    (hrow : c = .cSynSent ∧ d = .cEstablished ∨ c = .cClosing ∧ d = .closed) (h5 : 5 ≤ s.plen.toNat) :
    exec .cRecv s = .next (sendThen d (ackInPlace clientAckXf (setTxv s false))) := by
  obtain ⟨rfl, rfl⟩ | ⟨rfl, rfl⟩ := hrow <;>
    simp only [(exec_cRecv_accepted hf (by simp [hc])).1 h5, cRecvBody, setTxv_cstate, hc]

/-- Settles O50: the state check comes first, then the header check, and the body is chosen by CSTATE. -/
theorem clientReceives : Obligations.ClientReceives := by
  refine ⟨runsAsN_of_mem (by simp [commandForms]), fun s hs hf => ⟨fun hc h5 => ?_, fun hc h5 => ?_, fun hc h5 => ?_,
    fun hc => ?_, fun hc hshort => ?_⟩⟩
  · exact ⟨_, exec_cRecv_ack hf hc (.inl ⟨rfl, rfl⟩) h5, clientAck_made (setTxv s false), rfl⟩
  · exact exec_cRecv_echo hs hf hc h5
  · exact ⟨_, exec_cRecv_ack hf hc (.inr ⟨rfl, rfl⟩) h5, clientAck_made (setTxv s false), rfl⟩
  · exact exec_of_not_accepted hf rfl hc
  · exact (exec_cRecv_accepted hf hc).2 hshort

/-! ### The server's command (R146) and ABORT (R147) -/

/-- S_RECV where it reads a header: the header check decides (R146, R153). -/
theorem exec_sRecv_accepted {s : State} (hf : s.fault = false) (hc : s.cstate ∈ [CState.idle, .sEstablished]) :
    (5 ≤ s.plen.toNat → exec .sRecv s = sRecvBody (setTxv s false)) ∧
    (s.plen.toNat < 5 → exec .sRecv s = .next (takeFault .malformedHeader s)) := by
  have hstate : s.cstate ∈ [CState.idle, .sSynRcvd, .sEstablished] ∧ s.cstate ≠ .sSynRcvd := by
    revert hc
    cases s.cstate <;> decide
  have hcheck : execCheck .sRecv s = checkHeader s :=
    (firstError_of_none (checkState_none.2 hstate.1) _).trans (if_neg hstate.2)
  exact ⟨fun h5 => exec_runs hf (hcheck.trans (checkHeader_none.2 h5)),
    fun hshort => exec_faults hf (hcheck.trans (checkHeader_some.2 ⟨hshort, rfl⟩))⟩

/-- In S_SYN_RCVD no header is read, so PLEN does not matter (90_conflicts.md C5). -/
theorem exec_sRecv_sSynRcvd {s : State} (hf : s.fault = false) (hc : s.cstate = .sSynRcvd) :
    exec .sRecv s = .next (setCstate (setTxv s false) .sEstablished) := by
  have hcheck : execCheck .sRecv s = none :=
    (firstError_of_none (checkState_none.2 (by simp [hc])) _).trans (if_pos hc)
  rw [exec_runs hf hcheck]
  simp only [execBody, sRecvBody, setTxv_cstate, hc]

theorem exec_sRecv_idle {s : State} (hf : s.fault = false) (hc : s.cstate = .idle) (h5 : 5 ≤ s.plen.toNat) :
    exec .sRecv s = .next (sendThen .sSynRcvd (ackInPlace (serverAckXf · s.rnd) (setTxv s false))) := by
  rw [(exec_sRecv_accepted hf (by simp [hc])).1 h5]
  simp only [sRecvBody, setTxv_cstate, hc]
  rfl

/-- In S_ESTABLISHED the FIN bit of the packet decides between the close ack and the echo (R146). -/
theorem exec_sRecv_sEstablished {s : State} (hf : s.fault = false) (hc : s.cstate = .sEstablished)
    (h5 : 5 ≤ s.plen.toNat) :
    exec .sRecv s = .next (if finInPkt s then
      sendThen .closed (ackInPlace (closeAckXf · s.rnd) (setTxv s false)) else setTxv (loadHdr s) true) := by
  have hfin : anyMask (loadHdr (setTxv s false)).hdr.flags maskFin = finInPkt s := anyMask_maskFin _
  rw [(exec_sRecv_accepted hf (by simp [hc])).1 h5]
  simp only [sRecvBody, setTxv_cstate, hc, serveEstablished, hfin]
  rfl

/-- Settles O53: the state check comes first, then the header check outside S_SYN_RCVD, and the body is chosen by CSTATE
and, in S_ESTABLISHED, by FIN. -/
theorem serverReceives : Obligations.ServerReceives := by
  refine ⟨runsAsN_of_mem (by simp [commandForms]), fun s hf => ⟨fun hc h5 => ?_, exec_sRecv_sSynRcvd hf,
    fun hc h5 hfin => ?_, fun hc h5 hfin => ?_, fun hc => ?_, fun hc hshort => ?_⟩⟩
  · exact ⟨_, exec_sRecv_idle hf hc h5, serverAck_made (setTxv s false), rfl⟩
  · have hrun := exec_sRecv_sEstablished hf hc h5
    rw [if_pos hfin] at hrun
    exact ⟨_, hrun, closeAck_made (setTxv s false), rfl⟩
  · rw [exec_sRecv_sEstablished hf hc h5, hfin]
    rfl
  · exact exec_of_not_accepted hf rfl hc
  · exact (exec_sRecv_accepted hf hc).2 hshort

/-- Settles O54: the command has no check, and its body writes CSTATE alone. -/
theorem abortClosesInEveryState : Obligations.AbortClosesInEveryState :=
  ⟨runsAsN_of_mem (by simp [commandForms]), fun _ hf => exec_runs hf rfl⟩

end Sys2Proof.Machine
end

section
/-! PROOFS. Two blocks joined by the host (00_scope.md R2 to R4; 70_reset_and_hazards.md R182; log 11): one act of the host
at a time, and the round trip of a message from the client to the server and back (44_connection_fsm.md R143, R144, R146). -/

namespace Sys2Proof.Machine

/-! ### A block that runs -/

/-- `s` is a live block in the connection state `c`, with a DATA of `m` bytes, and meets the invariant. -/
structure LiveIn (m : Nat) (c : CState) (s : State) : Prop where
  inv    : s.Inv
  fault  : s.fault = false
  cstate : s.cstate = c
  size   : maxDataOf s = m

theorem LiveIn.maxPktOf_eq {m : Nat} {c : CState} {s : State} (hs : LiveIn m c s) : maxPktOf s = m + 5 :=
  congrArg (· + 5) hs.size

theorem LiveIn.after_driveRnd {m : Nat} {c : CState} {s : State} (hs : LiveIn m c s) (r : Word) : LiveIn m c (driveRnd s r) :=
  { hs with inv := inv_setInput hs.inv r s.pending }

/-- After a command that completes the block is live, in the state the command leaves. -/
theorem LiveIn.after_exec {m : Nat} {c d : CState} {i : Instr} {s t : State} (hs : LiveIn m c s)
    (h : exec i s = .next t) (hf : t.fault = false) (hd : t.cstate = d) : LiveIn m d t where
  inv := exec_keeps_inv hs.inv h
  fault := hf
  cstate := hd
  size := (congrArg Fin.val (exec_sameEnvironment h).maxData).trans hs.size

/-! ### The host's acts -/

/-- Driving the word of a command runs the command, with RND as it is driven. -/
theorem driveOne_encode {i : Instr} {r : Word} {s t : State} (h : exec i (driveRnd s r) = .next t) :
    driveOne s ⟨false, encode i, r⟩ = some t := by
  have hpending : t.pending = s.pending := (exec_sameEnvironment h).pending
  have hstep : step { s with pending := ⟨false, encode i, r⟩ :: s.pending } = .next t := by
    refine (step_of_pending_encode i r s.pending s).trans ?_
    rw [h, andThen_of_next, ← hpending]
    rfl
  simp only [driveOne, hstep]

theorem hostAct_drive_client {inp : HostInput} {e : Endpoints} {c : State} (h : driveOne e.client inp = some c) :
    hostAct (.drive .client inp) e = some ⟨c, e.server⟩ := by
  simp only [hostAct, h, Option.map_some]

theorem hostAct_drive_server {inp : HostInput} {e : Endpoints} {s : State} (h : driveOne e.server inp = some s) :
    hostAct (.drive .server inp) e = some ⟨e.client, s⟩ := by
  simp only [hostAct, h, Option.map_some]

theorem hostAct_relay_client {e : Endpoints} {c s : State} (h : relayOne e.client e.server = some (c, s)) :
    hostAct (.relay .client) e = some ⟨c, s⟩ := by
  simp only [hostAct, h, Option.map_some]

theorem hostAct_relay_server {e : Endpoints} {c s : State} (h : relayOne e.server e.client = some (s, c)) :
    hostAct (.relay .server) e = some ⟨c, s⟩ := by
  simp only [hostAct, h, Option.map_some]

theorem runSchedule_cons {a : HostAct} {e e' : Endpoints} (as : List HostAct) (h : hostAct a e = some e') :
    runSchedule (a :: as) e = runSchedule as e' := by
  simp only [runSchedule, h]

theorem runCommands_keeps_inv {cs : List (Instr × Word)} {s t : State} (hs : s.Inv) (h : runCommands cs s = .next t) :
    t.Inv := by
  induction cs generalizing s with
  | nil => exact Host.Outcome.next.inj h ▸ hs
  | cons c cs ih =>
    obtain ⟨u, hu, hut⟩ := andThen_next h
    exact ih (exec_keeps_inv (inv_setInput hs _ _) hu) hut

/-- A relay between live blocks, when a send is asked for and the payload fits: the receiver holds the sender's payload. -/
theorem relayOne_delivers {m n : Nat} {c d : CState} {src dst : State} (hsrc : LiveIn m c src) (hdst : LiveIn n d dst)
    (htxv : src.txv = true) (hfits : (payload src).length ≤ n + 5) :
    ∃ src' dst', relayOne src dst = some (src', dst') ∧ LiveIn m c src' ∧ LiveIn n d dst' ∧
      payload dst' = payload src := by
  have hlen : (payload src).length ≤ maxPktOf dst := hdst.maxPktOf_eq ▸ hfits
  obtain ⟨src', hcollect, hsrc'⟩ := hostReadsThePayloadOut src hsrc.inv hsrc.fault
  obtain ⟨dst', hdeliver, hpayload, -, -, hdst'⟩ := deliverPlacesTheDatagram dst (payload src) hdst.fault hlen
  refine ⟨src', dst', ?_, ?_, ?_, hpayload⟩
  · simp [relayOne, htxv, hsrc.fault, hcollect, hlen, hdeliver]
  · rw [hsrc']
    exact { hsrc with inv := inv_setRes (inv_setTxv hsrc.inv false) _ }
  · have hinv : dst'.Inv := runCommands_keeps_inv hdst.inv hdeliver
    refine ⟨hinv, ?_, ?_, ?_⟩
    · rw [hdst', hdst.fault]
    · rw [hdst', hdst.cstate]
    · rw [hdst']
      exact hdst.size

/-! ### Payloads with a header -/

theorem hdrBytes_injective : Function.Injective hdrBytes := by
  rintro ⟨⟩ ⟨⟩ h
  simpa [hdrBytes] using h

theorem length_payload (s : State) : (payload s).length = s.plen.toNat := bytesFrom_length _ _ _

theorem length_dataSegment (s : State) : (dataSegment s).length = s.dlen.toNat := bytesFrom_length _ _ _

section
variable {h : Header} {bs : List Byte} {s : State} (hs : payload s = hdrBytes h ++ bs)
include hs

theorem plen_of_payload : s.plen.toNat = 5 + bs.length := by
  rw [← length_payload, hs, List.length_append, hdrBytes_length]

theorem five_le_plen_of_payload : 5 ≤ s.plen.toNat := plen_of_payload hs ▸ Nat.le_add_right 5 _

theorem headerInPkt_of_payload : headerInPkt s = h :=
  hdrBytes_injective (List.append_inj ((payload_eq_header_append (five_le_plen_of_payload hs)).symm.trans hs) rfl).1

end

/-! ### The round trip -/

/-- The header of a data packet (R122). -/
def dataHeader : Header := ⟨0#8, 0#8, 0#8, 0#8, 0x10#8⟩

/-- C_SEND asks for the data segment to be sent behind the header of a data packet (R144). -/
theorem driveOne_cSend {m : Nat} {s : State} (r : Word) (hs : LiveIn m .cEstablished s) :
    ∃ t, driveOne s ⟨false, encode .cSend, r⟩ = some t ∧ LiveIn m .cEchoWait t ∧ t.txv = true ∧
      payload t = hdrBytes dataHeader ++ dataSegment s := by
  have hr := hs.after_driveRnd r
  obtain ⟨t, ht, ⟨hhdr, hmade⟩, hframe⟩ := exec_cSend_completes hr.inv hr.fault hr.cstate
  refine ⟨t, driveOne_encode ht, hr.after_exec ht ?_ ?_, ?_, ?_⟩
  · rw [hframe, hr.fault]
  · rw [hframe]
  · rw [hframe]
  · rw [payload_of_assembled hmade, hhdr]
    rfl

/-- S_RECV of a data packet asks for the same payload to be sent: FIN is clear in it (R146). -/
theorem driveOne_sRecv_echo {m : Nat} {s : State} {bs : List Byte} (r : Word) (hs : LiveIn m .sEstablished s)
    (hpayload : payload s = hdrBytes dataHeader ++ bs) :
    ∃ t, driveOne s ⟨false, encode .sRecv, r⟩ = some t ∧ LiveIn m .sEstablished t ∧ t.txv = true ∧
      payload t = payload s := by
  have hr := hs.after_driveRnd r
  have hfin : finInPkt (driveRnd s r) = false :=
    congrArg (fun h : Header => h.flags.getLsbD 3) (headerInPkt_of_payload hpayload)
  have ht := exec_sRecv_sEstablished hr.fault hr.cstate (five_le_plen_of_payload (s := driveRnd s r) hpayload)
  rw [hfin] at ht
  exact ⟨_, driveOne_encode ht, hr.after_exec ht hr.fault hr.cstate, rfl, rfl⟩

/-- C_RECV of an echo takes everything behind its header into DATA (R143). -/
theorem driveOne_cRecv_echo {m : Nat} {s : State} {h : Header} {bs : List Byte} (r : Word) (hs : LiveIn m .cEchoWait s)
    (hpayload : payload s = hdrBytes h ++ bs) :
    ∃ t, driveOne s ⟨false, encode .cRecv, r⟩ = some t ∧ LiveIn m .cEstablished t ∧ dataSegment t = bs ∧
      t.res = t.dlen := by
  have hr := hs.after_driveRnd r
  have h5 : 5 ≤ (driveRnd s r).plen.toNat := five_le_plen_of_payload hpayload
  obtain ⟨t, ht, hmade, hframe⟩ := exec_cRecv_echo hr.inv hr.fault hr.cstate h5
  refine ⟨t, driveOne_encode ht, hr.after_exec ht ?_ ?_, ?_, ?_⟩
  · rw [hframe, hr.fault]
  · rw [hframe]
  · exact (List.append_inj ((header_append_dataSegment_of_splitMade h5 hmade).trans hpayload) rfl).2
  · rw [hframe]

/-- A command that overwrites DATA or DLEN of a block whose DATA has `m` bytes, in range (R104, R108). -/
def SegmentWrite (m : Nat) (i : Instr) : Prop :=
  (∃ idx v, i = .wrData idx v ∧ idx.toNat < m) ∨ ∃ v, i = .setDlen v ∧ v.toNat ≤ m

theorem driveOne_segmentWrite {m : Nat} {c : CState} {i : Instr} {s : State} (r : Word) (hs : LiveIn m c s)
    (hi : SegmentWrite m i) : ∃ t, driveOne s ⟨false, encode i, r⟩ = some t ∧ LiveIn m c t := by
  have hr := hs.after_driveRnd r
  obtain ⟨idx, v, rfl, hidx⟩ | ⟨v, rfl, hv⟩ := hi
  · have ht := exec_wrData_live hr.fault v (hr.size ▸ hidx)
    exact ⟨_, driveOne_encode ht, hr.after_exec ht hr.fault hr.cstate⟩
  · have ht := exec_setDlen_live hr.fault (hr.size ▸ hv)
    exact ⟨_, driveOne_encode ht, hr.after_exec ht hr.fault hr.cstate⟩

/-- The acts that drive a list of commands on the client. -/
def driveClient (cs : List (Instr × Word)) : List HostAct := cs.map fun o => .drive .client ⟨false, encode o.1, o.2⟩

/-- Any number of such commands leaves the client live and in its state. -/
theorem runSchedule_segmentWrites {m : Nat} {c : CState} {cs : List (Instr × Word)} {e : Endpoints} (as : List HostAct)
    (hc : LiveIn m c e.client) (hcs : ∀ o ∈ cs, SegmentWrite m o.1) :
    ∃ t, runSchedule (driveClient cs ++ as) e = runSchedule as ⟨t, e.server⟩ ∧ LiveIn m c t := by
  induction cs generalizing e with
  | nil => exact ⟨e.client, rfl, hc⟩
  | cons o cs ih =>
    obtain ⟨ho, hcs⟩ := List.forall_mem_cons.1 hcs
    obtain ⟨u, hu, hlive⟩ := driveOne_segmentWrite o.2 hc ho
    obtain ⟨t, ht, hlive'⟩ := ih (e := ⟨u, e.server⟩) hlive hcs
    exact ⟨t, (runSchedule_cons _ (hostAct_drive_client hu)).trans ht, hlive'⟩

/-- The second half of the round trip: the server answers, and the client takes the answer. -/
def echoActs (r2 r3 : Word) : List HostAct :=
  [.drive .server ⟨false, encode .sRecv, r2⟩, .relay .server, .drive .client ⟨false, encode .cRecv, r3⟩]

/-- Settles O60: the data packet travels to the server, comes back unchanged, and C_RECV takes the message out of it; the
commands in between touch neither the connection nor what the server holds. -/
theorem echoReturnsTheMessage : Obligations.EchoReturnsTheMessage := by
  intro c s r1 r2 r3 writes hcinv hsinv hcf hsf hcc hsc hfits hwrites
  have hc : LiveIn (maxDataOf c) .cEstablished c := ⟨hcinv, hcf, hcc, rfl⟩
  have hs : LiveIn (maxDataOf s) .sEstablished s := ⟨hsinv, hsf, hsc, rfl⟩
  have hlen : (hdrBytes dataHeader ++ dataSegment c).length = 5 + c.dlen.toNat := by
    rw [List.length_append, hdrBytes_length, length_dataSegment]
  obtain ⟨c1, hact1, hc1, htxv1, hp1⟩ := driveOne_cSend r1 hc
  obtain ⟨c2, s2, hact2, hc2, hs2, hp2⟩ := relayOne_delivers hc1 hs htxv1 (by rw [hp1, hlen]; exact hfits)
  obtain ⟨s3, hact3, hs3, htxv3, hp3⟩ := driveOne_sRecv_echo r2 hs2 (hp2.trans hp1)
  have hpayload : payload s3 = hdrBytes dataHeader ++ dataSegment c := hp3.trans (hp2.trans hp1)
  obtain ⟨c3, hwritten, hc3⟩ := runSchedule_segmentWrites (e := ⟨c2, s2⟩) (echoActs r2 r3) hc2 hwrites
  have hback : (payload s3).length ≤ maxDataOf c + 5 := by
    rw [hpayload, hlen, Nat.add_comm]
    exact Nat.add_le_add_right hcinv.dlenFits 5
  obtain ⟨s4, c4, hact4, hs4, hc4, hp4⟩ := relayOne_delivers hs3 hc3 htxv3 hback
  obtain ⟨c5, hact5, hc5, hdata, hres⟩ := driveOne_cRecv_echo r3 hc4 (hp4.trans hpayload)
  have hdlen : c5.dlen = c.dlen := by
    rw [← BitVec.toNat_inj, ← length_dataSegment, ← length_dataSegment, hdata]
  refine ⟨⟨c5, s4⟩, ?_, hdata, hdlen, hres.trans hdlen, hc5.cstate, hs4.cstate, hc5.fault, hs4.fault⟩
  calc runSchedule ([.drive .client ⟨false, encode .cSend, r1⟩, .relay .client] ++ driveClient writes ++ echoActs r2 r3) ⟨c, s⟩
    _ = runSchedule (.relay .client :: (driveClient writes ++ echoActs r2 r3)) ⟨c1, s⟩ := by
      rw [List.append_assoc]
      exact runSchedule_cons _ (hostAct_drive_client hact1)
    _ = runSchedule (driveClient writes ++ echoActs r2 r3) ⟨c2, s2⟩ := runSchedule_cons _ (hostAct_relay_client hact2)
    _ = runSchedule (echoActs r2 r3) ⟨c3, s2⟩ := hwritten
    _ = runSchedule [.relay .server, .drive .client ⟨false, encode .cRecv, r3⟩] ⟨c3, s3⟩ :=
      runSchedule_cons _ (hostAct_drive_server hact3)
    _ = runSchedule [.drive .client ⟨false, encode .cRecv, r3⟩] ⟨c4, s4⟩ := runSchedule_cons _ (hostAct_relay_server hact4)
    _ = some ⟨c5, s4⟩ := runSchedule_cons [] (hostAct_drive_client hact5)

end Sys2Proof.Machine
end

section
/-! PROOFS. The system command NOP (45_system.md R150). -/

namespace Sys2Proof.Machine

/-- A completing command clears TXV (R32), and NOP's body adds no write of its own. -/
theorem exec_nop_live {s : State} (hf : s.fault = false) : exec .nop s = .next (setTxv s false) :=
  exec_runs hf rfl

/-- Settles O26: the command has no check and an empty body, and its words are a row of format N. -/
theorem nopClearsOnlyTxv : Obligations.NopClearsOnlyTxv :=
  ⟨runsAsN_of_mem (by simp [commandForms]), fun _ hf => exec_nop_live hf⟩

end Sys2Proof.Machine
end

section
/-! PROOFS. Errors and the halted block (60_exceptions.md R152 to R158); a step with nothing presented, and with the reset
input set (70_reset_and_hazards.md R167, R168). -/

namespace Sys2Proof.Machine

/-! ### The checks of a command against the causes of R154 -/

theorem checkState_eq_ite (l : List CState) (s : State) :
    checkState l s = if decide (s.cstate ∉ l) then some .illegalState else none := by
  simp only [checkState, decide_eq_true_eq, ite_not]

theorem checkIndex_eq_ite (idx : Word) (n : Nat) :
    checkIndex idx n = if decide (n ≤ idx.toNat) then some .indexRange else none := by
  simp only [checkIndex, decide_eq_true_eq, ← Nat.not_lt, ite_not]

theorem checkLength_eq_ite (len : Word) (n : Nat) :
    checkLength len n = if decide (n < len.toNat) then some .indexRange else none := by
  simp only [checkLength, decide_eq_true_eq, ← Nat.not_le, ite_not]

theorem checkHeader_eq_ite (s : State) :
    checkHeader s = if decide (s.plen.toNat < 5) then some .malformedHeader else none := by
  simp only [checkHeader, decide_eq_true_eq, ← Nat.not_le, ite_not]

theorem checkServerHeader_eq_ite (s : State) :
    checkServerHeader s =
      if decide (s.cstate ≠ .sSynRcvd) && decide (s.plen.toNat < 5) then some .malformedHeader else none := by
  by_cases hc : s.cstate = .sSynRcvd
  · simp [checkServerHeader, hc]
  · simp [checkServerHeader, hc, checkHeader_eq_ite]

/-- A check that fails, put before another one (R153). -/
theorem firstError_ite (p : Prop) [Decidable p] (e : Err) (b : Option Err) :
    firstError (if p then some e else none) b = if p then some e else b := by
  split <;> rfl

/-- A command makes the checks of R153, in their order; each command has only some of them (R154). -/
theorem execCheck_eq_expectedError (i : Instr) (s : State) : execCheck i s = expectedError i s := by
  cases i with
  | split | buildClientAck | buildServerAck | buildCloseAck => exact checkHeader_eq_ite s
  | wrPkt idx | rdPkt idx => exact checkIndex_eq_ite idx (maxPktOf s)
  | wrData idx | rdData idx => exact checkIndex_eq_ite idx (maxDataOf s)
  | setPlen len => exact checkLength_eq_ite len (maxPktOf s)
  | setDlen len => exact checkLength_eq_ite len (maxDataOf s)
  | cConnect | cSend | cClose => exact checkState_eq_ite _ s
  | cRecv =>
    simp only [execCheck, checkState_eq_ite, checkHeader_eq_ite, firstError_ite]
    rfl
  | sRecv =>
    simp only [execCheck, checkState_eq_ite, checkServerHeader_eq_ite, firstError_ite]
    rfl
  | _ => rfl

/-! ### What a word does to FAULT and ERR (R152, R155) -/

theorem runWord_halted {w : CmdWord} {s : State} (hf : s.fault = true) : runWord w s = .next s := by
  unfold runWord
  split
  · rw [exec_eq_command, command_halted hf]
  · exact command_halted hf

/-- A halted block consumes the word and ignores it (R31, R155). -/
theorem step_of_halted_word {s : State} {w : CmdWord} {r : Word} {rest : List HostInput} (hf : s.fault = true)
    (hp : s.pending = ⟨false, w, r⟩ :: rest) : step s = .next { s with rnd := r, pending := rest } :=
  (step_of_pending_word hp).trans (runWord_halted hf)

/-- In a live block a word enters a fault, for an error, or leaves the block live. -/
theorem runWord_next_live {w : CmdWord} {s t : State} (hf : s.fault = false) (h : runWord w s = .next t) :
    (∃ e, e ≠ .noError ∧ t = takeFault e s) ∨ t.fault = false := by
  unfold runWord at h
  split at h
  case h_1 i _ =>
    obtain ⟨hhalt, -⟩ | ⟨-, e, hc, rfl⟩ | ⟨-, -, hbody⟩ := command_next_cases (exec_eq_command i s ▸ h)
    · exact absurd (hf.symm.trans hhalt) Bool.false_ne_true
    · exact .inl ⟨e, fun he => execCheck_ne_noError i s (he ▸ hc), rfl⟩
    · exact .inr ((execBody_control hbody).fault.trans hf)
  case h_2 =>
    rw [illegalCommand, command_error hf] at h
    exact .inl ⟨.illegalCommand, nofun, (Host.Outcome.next.inj h).symm⟩

/-- A live block that meets the invariant completes a command whose checks pass, and stays live with no error (R33). -/
theorem exec_completes {i : Instr} {s : State} (hs : s.Inv) (hf : s.fault = false) (hc : execCheck i s = none) :
    ∃ t, exec i s = .next t ∧ t.fault = false ∧ t.err = .noError := by
  obtain ⟨t, ht, hinv⟩ := exec_answersInv hs i
  have hbody : execBody i (setTxv s false) = .next t := (exec_runs hf hc).symm.trans ht
  have hlive : t.fault = false := (execBody_control hbody).fault.trans hf
  exact ⟨t, ht, hlive, hinv.errIff.1 hlive⟩

/-- Settles O15: a word that is not legal does not decode, and the check of a command is the error R153 and R154 expect. -/
theorem errorsFollowTheCheckOrder : Obligations.ErrorsFollowTheCheckOrder := by
  intro w s hs
  refine ⟨runWord_halted, fun hf hw => illegalWordRaisesIllegalCommand w s hw hf, fun hf i hi => ?_⟩
  rw [runWord_of_decode hi, ← execCheck_eq_expectedError]
  exact ⟨fun _ he => exec_faults hf he, exec_completes hs hf⟩

/-- Settles O14: the prologue ignores every word, and a step either consumes a word, or has none, or resets. -/
theorem haltedBlockIgnoresEveryCommand : Obligations.HaltedBlockIgnoresEveryCommand := by
  refine ⟨fun _ _ => runWord_halted, fun _ _ _ _ => step_of_halted_word, fun s t hf h => ?_⟩
  cases hp : s.pending with
  | nil =>
    obtain rfl : s = t := Host.Outcome.next.inj ((step_of_pending_nil hp).symm.trans h)
    exact .inl ⟨hf, rfl⟩
  | cons inp rest =>
    obtain ⟨reset, w, r⟩ := inp
    cases reset with
    | true => exact .inr ⟨_, rest, rfl, rfl⟩
    | false =>
      obtain rfl := Host.Outcome.next.inj ((step_of_halted_word hf hp).symm.trans h)
      exact .inl ⟨hf, rfl⟩

/-- Settles O16: a body leaves FAULT at 0, so a word that leaves it at 1 entered the fault and ran no body. -/
theorem faultsArePrecise : Obligations.FaultsArePrecise := by
  intro w s t hf h ht
  obtain hfault | hlive := runWord_next_live hf h
  · exact hfault
  · exact absurd (hlive.symm.trans ht) Bool.false_ne_true

/-! ### Steps that run no word (R167, R168) -/

/-- Settles O7, by the step with an empty list of inputs. -/
theorem idleBlockKeepsAllState : Obligations.IdleBlockKeepsAllState := fun _ => step_of_pending_nil

/-- Settles O8: whatever the state and the word, the step is the reset, which writes the literals of R38. -/
theorem resetInputWins : Obligations.ResetInputWins := by
  intro s w r rest h
  exact ⟨_, step_of_pending_reset h, rfl, rfl, rfl, rfl, rfl, rfl, rfl, rfl, rfl, rfl, rfl⟩

end Sys2Proof.Machine
end

section
/-! PROOFS. What a command leaves of PKT, PLEN, DATA and DLEN (10_state.md R20, R24, R25; 70_reset_and_hazards.md R176). -/

namespace Sys2Proof.Machine

/-- What the body of the command `i`, run on `s`, has kept of the two buffers and their lengths when it answers `t`: the
stores themselves, of which the reads are a consequence. -/
structure BuffersAfter (i : Instr) (s t : State) : Prop where
  payload : writesPayload i s.cstate (finInPkt s) = false → t.plen = s.plen ∧ t.pkt = s.pkt
  segment : writesDataSegment i s.cstate = false → t.dlen = s.dlen ∧ t.data = s.data

theorem assembleBody_buffers {s t : State} (h : assembleBody s = .next t) : BuffersAfter .assemble s t := by
  obtain ⟨-, ht, -⟩ := assembleBody_next h
  rw [ht]
  exact ⟨nofun, fun _ => ⟨rfl, rfl⟩⟩

theorem dataPacketBody_buffers {s t : State} (h : dataPacketBody s = .next t) : BuffersAfter .buildData s t :=
  ⟨nofun, (assembleBody_buffers h).segment⟩

theorem cSend_buffers {s t : State} (h : execBody .cSend s = .next t) : BuffersAfter .cSend s t := by
  obtain ⟨u, hu, hut⟩ := andThen_next h
  obtain rfl := Host.Outcome.next.inj hut
  exact ⟨nofun, (dataPacketBody_buffers hu).segment⟩

theorem splitBody_buffers {s t : State} (h : splitBody s = .next t) : BuffersAfter .split s t := by
  obtain ⟨-, ht, -⟩ := splitBody_next h
  rw [ht]
  exact ⟨fun _ => ⟨rfl, rfl⟩, nofun⟩

/-- C_RECV writes DATA for an echo, and PKT for a reply that it acknowledges (R143). -/
theorem cRecvBody_buffers {s t : State} (h : cRecvBody s = .next t) : BuffersAfter .cRecv s t := by
  cases hc : s.cstate with
  | cEchoWait =>
    simp only [cRecvBody, hc] at h
    obtain ⟨u, hu, hut⟩ := andThen_next h
    obtain rfl := Host.Outcome.next.inj hut
    exact ⟨fun _ => (splitBody_buffers hu).payload rfl, by simp [writesDataSegment, hc]⟩
  | cSynSent | cClosing =>
    simp only [cRecvBody, hc] at h
    obtain rfl := Host.Outcome.next.inj h
    exact ⟨by simp [writesPayload, hc], fun _ => ⟨rfl, rfl⟩⟩
  | _ =>
    simp only [cRecvBody, hc] at h
    obtain rfl := Host.Outcome.next.inj h
    exact ⟨fun _ => ⟨rfl, rfl⟩, fun _ => ⟨rfl, rfl⟩⟩

/-- The echo sends PKT as it stands; only FIN makes the server write there (R146). -/
theorem serveEstablished_buffers {s : State} (hc : s.cstate = .sEstablished) :
    BuffersAfter .sRecv s (serveEstablished s) := by
  have hfin : anyMask (loadHdr s).hdr.flags maskFin = finInPkt s := anyMask_maskFin _
  rw [serveEstablished, hfin]
  split
  case isTrue h => exact ⟨by simp [writesPayload, hc, h], fun _ => ⟨rfl, rfl⟩⟩
  case isFalse => exact ⟨fun _ => ⟨rfl, rfl⟩, fun _ => ⟨rfl, rfl⟩⟩

theorem sRecvBody_buffers {s t : State} (h : sRecvBody s = .next t) : BuffersAfter .sRecv s t := by
  cases hc : s.cstate with
  | sEstablished =>
    simp only [sRecvBody, hc] at h
    obtain rfl := Host.Outcome.next.inj h
    exact serveEstablished_buffers hc
  | idle =>
    simp only [sRecvBody, hc] at h
    obtain rfl := Host.Outcome.next.inj h
    exact ⟨by simp [writesPayload, hc], fun _ => ⟨rfl, rfl⟩⟩
  | _ =>
    simp only [sRecvBody, hc] at h
    obtain rfl := Host.Outcome.next.inj h
    exact ⟨fun _ => ⟨rfl, rfl⟩, fun _ => ⟨rfl, rfl⟩⟩

theorem execBody_buffers {i : Instr} {s t : State} (h : execBody i s = .next t) : BuffersAfter i s t := by
  cases i with
  | assemble => exact assembleBody_buffers h
  | split => exact splitBody_buffers h
  | buildData => exact dataPacketBody_buffers h
  | cSend => exact cSend_buffers h
  | cRecv => exact cRecvBody_buffers h
  | sRecv => exact sRecvBody_buffers h
  | wrPkt | setPlen | buildConnReq | buildDiscReq | buildClientAck | buildServerAck | buildCloseAck | cConnect | cClose =>
    obtain rfl := Host.Outcome.next.inj h
    exact ⟨nofun, fun _ => ⟨rfl, rfl⟩⟩
  | wrData | setDlen =>
    obtain rfl := Host.Outcome.next.inj h
    exact ⟨fun _ => ⟨rfl, rfl⟩, nofun⟩
  | _ =>
    obtain rfl := Host.Outcome.next.inj h
    exact ⟨fun _ => ⟨rfl, rfl⟩, fun _ => ⟨rfl, rfl⟩⟩

/-- A halted block and fault entry keep both buffers; the prologue's write of TXV is not seen by them. -/
theorem exec_buffers {i : Instr} {s t : State} (h : exec i s = .next t) : BuffersAfter i s t := by
  obtain ⟨-, rfl⟩ | ⟨-, e, -, rfl⟩ | ⟨-, -, hbody⟩ := command_next_cases (exec_eq_command i s ▸ h)
  · exact ⟨fun _ => ⟨rfl, rfl⟩, fun _ => ⟨rfl, rfl⟩⟩
  · exact ⟨fun _ => ⟨rfl, rfl⟩, fun _ => ⟨rfl, rfl⟩⟩
  · obtain ⟨hpayload, hsegment⟩ := execBody_buffers hbody
    exact ⟨hpayload, hsegment⟩

/-- Settles O21: a command that is no writer keeps the store and, as every command, the draw, and a read depends on nothing
else. -/
theorem buffersChangeOnlyWhereNamed : Obligations.BuffersChangeOnlyWhereNamed := by
  intro i s t h
  obtain ⟨hpayload, hsegment⟩ := exec_buffers h
  have hdraw : t.draw = s.draw := (exec_sameEnvironment h).draw
  exact ⟨fun hw => (hpayload hw).imp_right fun hpkt => readPkt_congr hpkt hdraw,
    fun hw => (hsegment hw).imp_right fun hdata => readData_congr hdata hdraw⟩

end Sys2Proof.Machine
end

section
/-! PROOFS. The handshake of two blocks (44_connection_fsm.md R142, R143, R146; 70_reset_and_hazards.md R182): each of its
three packets is a bare header, so it fits in every block, and the header check of its receiver passes. -/

namespace Sys2Proof.Machine

/-- `s` is live in the state `c`, and asks for a bare header to be sent. -/
structure SendsHeader (m : Nat) (c : CState) (s : State) : Prop where
  live : LiveIn m c s
  txv  : s.txv = true
  plen : s.plen.toNat = 5

/-- `s` is live in the state `c`, and holds a bare header as its payload. -/
structure HoldsHeader (m : Nat) (c : CState) (s : State) : Prop where
  live : LiveIn m c s
  plen : s.plen.toNat = 5

/-- MAX_PKT is at least 5, so the relay delivers a bare header to any live block (R5). -/
theorem relayOne_header {m n : Nat} {c d : CState} {src dst : State} (hsrc : SendsHeader m c src) (hdst : LiveIn n d dst) :
    ∃ src' dst', relayOne src dst = some (src', dst') ∧ LiveIn m c src' ∧ HoldsHeader n d dst' := by
  have hlen : (payload src).length = 5 := (length_payload src).trans hsrc.plen
  obtain ⟨src', dst', hrelay, hsrc', hdst', hpayload⟩ :=
    relayOne_delivers hsrc.live hdst hsrc.txv (hlen ▸ Nat.le_add_left 5 n)
  refine ⟨src', dst', hrelay, hsrc', hdst', ?_⟩
  rw [← length_payload, hpayload, hlen]

/-- C_CONNECT makes the connection request, whatever PKT held (R142). -/
theorem driveOne_cConnect {m : Nat} {s : State} (r : Word) (hs : LiveIn m .idle s) :
    ∃ t, driveOne s ⟨false, encode .cConnect, r⟩ = some t ∧ SendsHeader m .cSynSent t := by
  have hr := hs.after_driveRnd r
  have ht : exec .cConnect (driveRnd s r) = .next (sendThen .cSynSent (connReqBody (setTxv (driveRnd s r) false))) :=
    exec_runs hr.fault (checkState_none.2 (List.mem_singleton.2 hr.cstate))
  exact ⟨_, driveOne_encode ht, hr.after_exec ht hr.fault rfl, rfl, rfl⟩

/-- S_RECV in IDLE acknowledges the request in place (R146). -/
theorem driveOne_sRecv_idle {m : Nat} {s : State} (r : Word) (hs : HoldsHeader m .idle s) :
    ∃ t, driveOne s ⟨false, encode .sRecv, r⟩ = some t ∧ SendsHeader m .sSynRcvd t := by
  have hr := hs.live.after_driveRnd r
  have ht := exec_sRecv_idle hr.fault hr.cstate (Nat.le_of_eq hs.plen.symm)
  exact ⟨_, driveOne_encode ht, hr.after_exec ht hr.fault rfl, rfl, hs.plen⟩

/-- C_RECV in C_SYN_SENT acknowledges the server's reply in place (R143). -/
theorem driveOne_cRecv_cSynSent {m : Nat} {s : State} (r : Word) (hs : HoldsHeader m .cSynSent s) :
    ∃ t, driveOne s ⟨false, encode .cRecv, r⟩ = some t ∧ SendsHeader m .cEstablished t := by
  have hr := hs.live.after_driveRnd r
  have ht := exec_cRecv_ack hr.fault hr.cstate (.inl ⟨rfl, rfl⟩) (Nat.le_of_eq hs.plen.symm)
  exact ⟨_, driveOne_encode ht, hr.after_exec ht hr.fault rfl, rfl, hs.plen⟩

/-- S_RECV in S_SYN_RCVD takes the client's acknowledgement (R146). -/
theorem driveOne_sRecv_sSynRcvd {m : Nat} {s : State} (r : Word) (hs : LiveIn m .sSynRcvd s) :
    ∃ t, driveOne s ⟨false, encode .sRecv, r⟩ = some t ∧ LiveIn m .sEstablished t := by
  have hr := hs.after_driveRnd r
  have ht := exec_sRecv_sSynRcvd hr.fault hr.cstate
  exact ⟨_, driveOne_encode ht, hr.after_exec ht hr.fault rfl⟩

/-- Settles O59: the request, the server's acknowledgement and the client's each reach the other block, and each moves its
receiver one row further in the table. -/
theorem handshakeEstablishesBothSides : Obligations.HandshakeEstablishesBothSides := by
  intro c s r1 r2 r3 r4 hcinv hsinv hcf hsf hcc hsc
  have hc : LiveIn (maxDataOf c) .idle c := ⟨hcinv, hcf, hcc, rfl⟩
  have hs : LiveIn (maxDataOf s) .idle s := ⟨hsinv, hsf, hsc, rfl⟩
  obtain ⟨c1, hact1, hc1⟩ := driveOne_cConnect r1 hc
  obtain ⟨c2, s2, hact2, hc2, hs2⟩ := relayOne_header hc1 hs
  obtain ⟨s3, hact3, hs3⟩ := driveOne_sRecv_idle r2 hs2
  obtain ⟨s4, c4, hact4, hs4, hc4⟩ := relayOne_header hs3 hc2
  obtain ⟨c5, hact5, hc5⟩ := driveOne_cRecv_cSynSent r3 hc4
  obtain ⟨c6, s6, hact6, hc6, hs6⟩ := relayOne_header hc5 hs4
  obtain ⟨s7, hact7, hs7⟩ := driveOne_sRecv_sSynRcvd r4 hs6.live
  refine ⟨⟨c6, s7⟩, ?_, hc6.cstate, hs7.cstate, hc6.fault, hs7.fault⟩
  exact (runSchedule_cons _ (hostAct_drive_client hact1)).trans <|
    (runSchedule_cons _ (hostAct_relay_client hact2)).trans <|
    (runSchedule_cons _ (hostAct_drive_server hact3)).trans <|
    (runSchedule_cons _ (hostAct_relay_server hact4)).trans <|
    (runSchedule_cons _ (hostAct_drive_client hact5)).trans <|
    (runSchedule_cons _ (hostAct_relay_client hact6)).trans <|
    runSchedule_cons [] (hostAct_drive_server hact7)

end Sys2Proof.Machine
end
